-- ==== Sys2Proof/Word.lean ====
section
/-! DEFINITION. The word types of the DES3 core, at the widths of rule R7 (00_scope.md). All values are unsigned (R9). -/

namespace Sys2Proof

/-- A register, a key or a block: 64 bits (R7, R22). Register bit 63 is FIPS bit 1 (R10). -/
abbrev Word := BitVec 64

/-- A round subkey: 48 bits (R7). -/
abbrev Subkey := BitVec 48

/-- A Feistel half-block: 32 bits (R7). -/
abbrev Half := BitVec 32

/-- A key-schedule half, C or D: 28 bits (R7). -/
abbrev KeyHalf := BitVec 28

/-- The sixteen round subkeys K1..K16 of one engine (R27); K`n` stands at index `n - 1`. -/
abbrev Schedule := Vector Subkey 16

end Sys2Proof
end

