-- ==== Sys2Proof/Syntax.lean ====
section
/-! DEFINITION. The commands of the DES3 core: one constructor for each row of spec/opcode_table.json (R72). -/

namespace Sys2Proof

/-- A command.  Its one operand `c` is a context-slot index (R73); keys and blocks travel in the registers, never in the command
word.  An index that no word can hold is ill formed (WellFormed.lean; log entry 11). -/
inductive Instr
  /-- `des.load c`: construct DES(KEY1) in slot `c` (R110). -/
  | desLoad (c : Nat)
  /-- `tdes.load c`: construct 3DES(KEY1, KEY2, KEY3) in slot `c` (R163). -/
  | tdesLoad (c : Nat)
  /-- `enc c`: encrypt DIN with the instance in slot `c` (R181). -/
  | enc (c : Nat)
  /-- `dec c`: decrypt DIN with the instance in slot `c` (R182). -/
  | dec (c : Nat)
  /-- `destroy c`: end the instance in slot `c` (R183). -/
  | destroy (c : Nat)
  deriving DecidableEq, Repr

/-- The slot index a command names (R73). -/
def Instr.slot : Instr → Nat
  | .desLoad c => c
  | .tdesLoad c => c
  | .enc c => c
  | .dec c => c
  | .destroy c => c

/-- The mnemonic of R78, as spec/opcode_table.json spells it. -/
def Instr.mnemonic : Instr → String
  | .desLoad _ => "des.load"
  | .tdesLoad _ => "tdes.load"
  | .enc _ => "enc"
  | .dec _ => "dec"
  | .destroy _ => "destroy"

end Sys2Proof
end

