-- ==== Sys2Proof/WellFormed.lean ====
section
/-! DEFINITION. Which commands can be encoded (R78: "An assembler refuses a c outside 0..255, because it cannot be encoded"). -/

namespace Sys2Proof

/-- The slot index fits the 8-bit CTX field (R71, R78).  An index of `N_CTX` or more is well formed: the hardware reports it. -/
def Instr.wellFormed (i : Instr) : Bool :=
  decide (i.slot < 256)

end Sys2Proof
end

