-- ==== Sys2Proof/Decode.lean ====
section
/-! DEFINITION. Decoding a command word, total on every 64-bit value (R70, R71, R77), the encoder written from the same table
(R78), and the rows of spec/opcode_table.json as data. -/

namespace Sys2Proof

/-- Why a command word is no command.  Either way the command fails with ILLEGAL_CMD (R74, R75). -/
inductive DecodeError
  /-- A 1 bit in RSV0 (bits [7:4]) or RSV1 (bits [63:16]) (R74). -/
  | reservedBits
  /-- An OP of 0x0 or 0x6..0xF (R75). -/
  | illegalOp (op : BitVec 4)
  deriving DecidableEq, Repr

/-- OP, bits [3:0] of the command word (R71). -/
def opField (w : Word) : BitVec 4 := w.extractLsb' 0 4

/-- RSV0, bits [7:4] of the command word (R71). -/
def rsv0Field (w : Word) : BitVec 4 := w.extractLsb' 4 4

/-- CTX, bits [15:8] of the command word (R71). -/
def ctxField (w : Word) : BitVec 8 := w.extractLsb' 8 8

/-- RSV1, bits [63:16] of the command word (R71). -/
def rsv1Field (w : Word) : BitVec 48 := w.extractLsb' 16 48

/-- The command of an OP value (R72); none for 0x0 and 0x6..0xF (R75). -/
def commandOfOp (op : BitVec 4) (c : Nat) : Option Instr :=
  match op.toNat with
  | 1 => some (.desLoad c)
  | 2 => some (.tdesLoad c)
  | 3 => some (.enc c)
  | 4 => some (.dec c)
  | 5 => some (.destroy c)
  | _ => none

/-- The decoder of R70: reserved bits first, then the OP value.  CTX is unsigned and not scaled (R73). -/
def decode (w : Word) : Except DecodeError Instr :=
  if rsv1Field w ≠ 0 ∨ rsv0Field w ≠ 0 then .error .reservedBits
  else
    match commandOfOp (opField w) (ctxField w).toNat with
    | some i => .ok i
    | none => .error (.illegalOp (opField w))

/-- The OP value of a command (R72). -/
def opcodeOf : Instr → BitVec 4
  | .desLoad _ => 0x1
  | .tdesLoad _ => 0x2
  | .enc _ => 0x3
  | .dec _ => 0x4
  | .destroy _ => 0x5

/-- The command word of a well-formed command, field by field from the most significant (R71). -/
def encode (i : Instr) : Word :=
  0#48 ++ BitVec.ofNat 8 i.slot ++ 0#4 ++ opcodeOf i

/-- The assembler of R78: it refuses a slot index that cannot be encoded. -/
def assemble (i : Instr) : Option Word :=
  if i.wellFormed then some (encode i) else none

/-- One row of spec/opcode_table.json: a word is this row's command when its `mask` bits are `pattern`. -/
structure OpcodeRow where
  mnemonic : String
  pattern : Word
  mask : Word
  deriving DecidableEq, Repr

/-- The rows of spec/opcode_table.json, in its order. -/
def opcodeRows : List OpcodeRow :=
  [ ⟨"des.load", 0x0000000000000001, 0xFFFFFFFFFFFF00FF⟩,
    ⟨"tdes.load", 0x0000000000000002, 0xFFFFFFFFFFFF00FF⟩,
    ⟨"enc", 0x0000000000000003, 0xFFFFFFFFFFFF00FF⟩,
    ⟨"dec", 0x0000000000000004, 0xFFFFFFFFFFFF00FF⟩,
    ⟨"destroy", 0x0000000000000005, 0xFFFFFFFFFFFF00FF⟩ ]

/-- The command word whose low `nbits` bits are those of `w` and whose other bits are 0.  A command is one 64-bit value (R77) and
the block has no byte order (R53), so the table's bit 0 is the word's bit 0. -/
def tableWord (nbits w : Nat) : Word :=
  BitVec.ofNat 64 (w % 2 ^ nbits)

/-- The command the decoder reads from a row's word, numbered as spec/opcode_table.json numbers it; none for more than 64 bits,
since every command is exactly one 64-bit word (R77). -/
def decodeTableWord (nbits w : Nat) : Option Instr :=
  if nbits ≤ 64 then (decode (tableWord nbits w)).toOption else none

end Sys2Proof
end

