-- ==== Sys2Proof/Config.lean ====
section
/-! DEFINITION. What an implementation fixes (R8) and the free values of the state right after power-up (R22, R230).

`N_CTX` is OPEN (R8, D2): the machine carries it as the number of its context slots (`State.nCtx`), no step changes it, and a
claim about every state holds for every `N_CTX`.  `BASE`, `LATENCY(op)` and `N_HOST` are OPEN too (R8); no rule of the model
depends on them: registers are addressed by offset alone (R51), no rule depends on time (R241), and any number of host agents
may stand in the list of arriving accesses (R213). -/

namespace Sys2Proof

/-- The least `N_CTX` an implementation may have (R8). -/
def Config.minSlots : Nat := 1

/-- The greatest `N_CTX` an implementation may have (R8). -/
def Config.maxSlots : Nat := 256

/-- How many context slots `State.reset` has.  DESIGN CHOICE (log entry 1): `N_CTX` is OPEN (R8); 4 is the number the vectors of
95_test_vectors.md section 5 take.  Unsafe for a claim about `State.reset` alone. -/
def Config.resetSlots : Nat := 4

/-- KEY1, KEY2, KEY3 (`j` = 0, 1, 2) in `State.reset`: UNSPECIFIED (R22), a free value (log entry 2). -/
opaque Config.powerUpKey : Nat → Word

/-- DIN in `State.reset`: UNSPECIFIED (R22), a free value (log entry 2). -/
opaque Config.powerUpDin : Word

/-- DOUT in `State.reset`: UNSPECIFIED (R22), a free value (log entry 2). -/
opaque Config.powerUpDout : Word

/-- Whether the kind bit of slot `c` is TDES in `State.reset`: UNSPECIFIED and unobservable (R230, R30), a free value (log
entry 2). -/
opaque Config.powerUpSlotIsTdes : Nat → Bool

/-- Key `j` of slot `c` in `State.reset`: UNSPECIFIED and unobservable (R230, R30), a free value (log entry 2). -/
opaque Config.powerUpSlotKey : Nat → Nat → Word

/-- Subkey `i` of engine `j` of slot `c` in `State.reset`: UNSPECIFIED and unobservable (R230, R30), a free value (log entry 2). -/
opaque Config.powerUpSlotSubkey : Nat → Nat → Nat → Subkey

end Sys2Proof
end

