-- ==== Sys2Proof/Machine/State.lean ====
section
/-! DEFINITION. The state of the DES3 core as plain data (R35), the host accesses that arrive at it (R20, R58), the reasons a step
can stop, and the state right after reset (R22, R230). -/

namespace Sys2Proof.Machine

/-- The kind of a slot's instance (R27). -/
inductive Kind
  | des
  | tdes
  deriving DecidableEq, Repr, Inhabited

/-- A context slot (R27).  `key[j]` and `ks[j]` belong to engine `j` (the document's des1, des2, des3); subkey K`n` of engine `j`
is `ks[j][n - 1]`. -/
structure Slot where
  valid : Bool
  kind : Kind
  key : Vector Word 3
  ks : Vector Schedule 3
  deriving DecidableEq, Repr, Inhabited

/-- The values STATUS.ERRCODE can hold (R24, R200).  5..15 are never produced, so they have no constructor (93_implementation_defined.md). -/
inductive ErrCode
  | ok
  | illegalCmd
  | badCtx
  | noInstance
  | slotInUse
  deriving DecidableEq, Repr, Inhabited

/-- The eight registers of the window (R22). -/
inductive Reg
  | cmd
  | status
  | key1
  | key2
  | key3
  | din
  | dout
  | caps
  deriving DecidableEq, Repr

/-- The draws of one reset (R230, R214: "It is a free input, and a claim must hold for all draws").  `slots` gives the
unobservable fields of the slots; its `valid` bits are not used (log entry 3). -/
structure Draws where
  keyStage : Vector Word 3
  din : Word
  dout : Word
  slots : List Slot
  deriving DecidableEq, Repr, Inhabited

/-- One access of a host agent to the window, or its drive of the reset input (R20).  `off` is the byte offset from BASE (R51) and
`width` the access width in bytes; only 8 is defined (R56), and `value` is then the 64-bit value written.  The value of a wider write is not kept: that access has no
effect (log entry 8). -/
inductive Event
  | read (off width : Nat)
  | write (off width : Nat) (value : Word)
  | reset (draws : Draws)
  deriving DecidableEq, Repr

/-- An event and the host agent that makes it (R213). -/
structure Arrival where
  agent : Nat
  event : Event
  deriving DecidableEq, Repr

/-- The value a host read returned, and the host agent it was returned to (R54). -/
structure Reply where
  agent : Nat
  value : Word
  deriving DecidableEq, Repr

/-- The state of the machine.  The first six fields and `refused` are the record of R35; `arrivals` and `replies` are the model's
own, for what the host agents send and get back. -/
structure State where
  /-- KEY1, KEY2, KEY3 (R26). -/
  keyStage : Vector Word 3
  /-- DIN (R31). -/
  din : Word
  /-- DOUT (R32). -/
  dout : Word
  /-- STATUS[3:0] (R24). -/
  errcode : ErrCode
  /-- STATUS[8], sticky (R24). -/
  errseen : Bool
  /-- The context slots CTX[0] .. CTX[N_CTX-1] (R27); their number is `N_CTX` (log entry 1). -/
  ctx : List Slot
  /-- The model's mark of an access that has no meaning (R35, R56); once set it is never cleared. -/
  refused : Bool
  /-- The host accesses still to come, the next one first: the one total order of R58.  It may hold any interleaving of the host
  agents' accesses, so a claim about every state holds for every interleaving (log entry 4). -/
  arrivals : List Arrival
  /-- The values host reads have returned, the latest first (R54; log entry 5). -/
  replies : List Reply
  deriving DecidableEq, Repr

/-- Why the machine stops with a fault. -/
inductive Fault
  /-- Raised by `perform` on a host access at an offset past the 64-byte window.  Such an access does not reach this block: "The
  platform also decides what a host access outside BASE .. BASE+0x3F reaches; it is not this block" (R51).  Safe: the model stops
  where the platform goes on (log entry 6). -/
  | outsideWindow
  deriving DecidableEq, Repr

/-- Why a step is refused. -/
inductive Refusal
  /-- An instruction whose meaning has not been written.  No arm of `exec` answers it: every command has its meaning.  Safe. -/
  | notModelled (mnemonic : String)
  deriving DecidableEq, Repr

/-- `N_CTX`, the number of context slots (R8, R27). -/
def State.nCtx (s : State) : Nat := s.ctx.length

/-- Slot `c` of `State.reset`: no instance (R230); the other fields are free values nothing can observe (R30; log entry 2). -/
def Slot.powerUp (c : Nat) : Slot where
  valid := false
  kind := if Config.powerUpSlotIsTdes c then .tdes else .des
  key := Vector.ofFn fun j => Config.powerUpSlotKey c j
  ks := Vector.ofFn fun j => Vector.ofFn fun i => Config.powerUpSlotSubkey c j i

/-- The machine right after reset (R22, R230), before any host access: every slot without an instance, STATUS 0, and KEY1..KEY3,
DIN and DOUT UNSPECIFIED, here free values (log entry 2). -/
def State.reset : State where
  keyStage := Vector.ofFn fun j => Config.powerUpKey j
  din := Config.powerUpDin
  dout := Config.powerUpDout
  errcode := .ok
  errseen := false
  ctx := (List.range Config.resetSlots).map Slot.powerUp
  refused := false
  arrivals := []
  replies := []

end Sys2Proof.Machine
end

