-- ==== Sys2Proof/Machine/Flags.lean ====
section
/-! DEFINITION. The status flags: the ERRCODE numbers (R200), STATUS as the host reads it (R24), and what a command that succeeds
or fails does to them (R201, R202). -/

namespace Sys2Proof.Machine

/-- The number STATUS.ERRCODE holds (R24, R200). -/
def errcodeNumber : ErrCode → BitVec 4
  | .ok => 0
  | .illegalCmd => 1
  | .badCtx => 2
  | .noInstance => 3
  | .slotInUse => 4

/-- STATUS as the host reads it: ERRSEEN at bit 8, ERRCODE in bits [3:0], the reserved bits 0 (R24, R54). -/
def statusWord (s : State) : Word :=
  ((BitVec.ofBool s.errseen).setWidth 64 <<< 8) ||| (errcodeNumber s.errcode).setWidth 64

/-- The status effect of a command that succeeds: ERRCODE ← 0, ERRSEEN unchanged (R201). -/
def succeed (s : State) : State := { s with errcode := .ok }

/-- `raise Error(code)`: the shared operation of every failing command.  It records the code and the sticky ERRSEEN and changes
nothing else (R202); no trap is taken, no state saved and no control transferred (R204). -/
def raiseError (code : ErrCode) (s : State) : State := { s with errcode := code, errseen := true }

end Sys2Proof.Machine
end

