-- ==== Sys2Proof/Machine/BitOps.lean ====
section
/-! DEFINITION. FIPS bit numbering (R10), the permutation primitive (R11) and the 28-bit rotation (R12). -/

namespace Sys2Proof.Machine

/-- FIPS bit `j` of an n-bit value, 1 the most significant: `fbit_n(v, j) = v[n - j]` (R10). -/
def fbit {n : Nat} (v : BitVec n) (j : Nat) : Bool := v.getLsbD (n - j)

/-- `Permute(T, n, v)` as the loop of R11: each entry of the table in turn shifts the input bit it names in at bit 0.  `m` is the
number of entries. -/
def permute (m : Nat) (table : List Nat) {n : Nat} (v : BitVec n) : BitVec m :=
  table.foldl (fun r t => (r <<< 1) ||| (BitVec.ofBool (v.getLsbD (n - t))).setWidth m) 0#m

/-- `ROTL28(x, s)`, the left rotation of a 28-bit value (R12). -/
def rotl28 (x : KeyHalf) (s : Nat) : KeyHalf := (x <<< s) ||| (x >>> (28 - s))

end Sys2Proof.Machine
end

