-- ==== Sys2Proof/Machine/Feistel.lean ====
section
/-! DEFINITION. The Feistel round engine: IP, sixteen rounds of E, XOR, S-boxes and P, then FP (R130 to R154). -/

namespace Sys2Proof.Machine

/-- Whether the subkeys are used forward or reversed (R150). -/
inductive Direction
  | encrypt
  | decrypt
  deriving DecidableEq, Repr

/-- `Expand(R)` (R133). -/
def expand (r : Half) : Subkey := permute 48 expansion r

/-- Group B`i+1` of X, six bits, B1 the most significant (R135). -/
def sixBitGroup (x : Subkey) (i : Nat) : BitVec 6 := x.extractLsb' (42 - 6 * i) 6

/-- The S-box row of a group: its outer bits, b[5] ‖ b[0] (R136). -/
def sboxRow (b : BitVec 6) : Nat := 2 * (b.getLsbD 5).toNat + (b.getLsbD 0).toNat

/-- The S-box column of a group: its middle bits, b[4:1] (R136). -/
def sboxCol (b : BitVec 6) : Nat := (b.extractLsb' 1 4).toNat

/-- The lookup of a 6-bit group in an S-box: `TABLE[16 × row + col]` (R136). -/
def sboxLookup (table : List Nat) (b : BitVec 6) : BitVec 4 :=
  BitVec.ofNat 4 (table.getD (16 * sboxRow b + sboxCol b) 0)

/-- Y, the eight S-box outputs, S1's the most significant (R145, R147). -/
def substitute (x : Subkey) : Half :=
  sboxes.zipIdx.foldl (fun y t => (y <<< 4) ||| (sboxLookup t.1 (sixBitGroup x t.2)).setWidth 32) 0#32

/-- The round function f(R, K) (R134, R147). -/
def roundF (r : Half) (k : Subkey) : Half := permute 32 pTable (substitute (expand r ^^^ k))

/-- One round on (L, R) with its round key (R148). -/
def feistelRound (lr : Half × Half) (k : Subkey) : Half × Half := (lr.2, lr.1 ^^^ roundF lr.2 k)

/-- The round keys in the order the rounds use them: K1..K16, or K16..K1 for decryption (R150). -/
def roundKeys (ks : Schedule) : Direction → List Subkey
  | .encrypt => ks.toList
  | .decrypt => ks.toList.reverse

/-- (L(0), R(0)): the halves of the block after IP, L the more significant (R131, R132). -/
def initialHalves (block : Word) : Half × Half :=
  ((permute 64 ip block).extractLsb' 32 32, (permute 64 ip block).extractLsb' 0 32)

/-- FP of R(16) ‖ L(16), the halves swapped (R149). -/
def finalBlock (lr : Half × Half) : Word := permute 64 fp (lr.2 ++ lr.1)

/-- `DesCrypt(ks, block, dir)` (R150). -/
def desCrypt (ks : Schedule) (block : Word) (dir : Direction) : Word :=
  finalBlock ((roundKeys ks dir).foldl feistelRound (initialHalves block))

/-- `DesEncrypt(ks, b)` (R151). -/
def desEncrypt (ks : Schedule) (b : Word) : Word := desCrypt ks b .encrypt

/-- `DesDecrypt(ks, b)` (R151). -/
def desDecrypt (ks : Schedule) (b : Word) : Word := desCrypt ks b .decrypt

end Sys2Proof.Machine
end

