-- ==== Sys2Proof/Machine/Ede.lean ====
section
/-! DEFINITION. The Triple-DES EDE composer (R160 to R162). -/

namespace Sys2Proof.Machine

/-- `TdesEncrypt(ks0, ks1, ks2, b)`: encrypt under key 1, decrypt under key 2, encrypt under key 3 (R161, R164). -/
def tdesEncrypt (ks0 ks1 ks2 : Schedule) (b : Word) : Word :=
  desEncrypt ks2 (desDecrypt ks1 (desEncrypt ks0 b))

/-- `TdesDecrypt(ks0, ks1, ks2, b)`: decrypt under key 3, encrypt under key 2, decrypt under key 1 (R162, R164). -/
def tdesDecrypt (ks0 ks1 ks2 : Schedule) (b : Word) : Word :=
  desDecrypt ks0 (desEncrypt ks1 (desDecrypt ks2 b))

end Sys2Proof.Machine
end

