-- ==== Sys2Proof/Machine/KeySchedule.lean ====
section
/-! DEFINITION. The key schedule: from a 64-bit key to sixteen 48-bit subkeys (R100 to R109). -/

namespace Sys2Proof.Machine

/-- `CD0`, the 56 bits PC-1 selects; the parity bits reach no output (R101, R102). -/
def permutedKey (key : Word) : BitVec 56 := permute 56 pc1 key

/-- `C0 = CD0[55:28]` (R102). -/
def initialC (key : Word) : KeyHalf := (permutedKey key).extractLsb' 28 28

/-- `D0 = CD0[27:0]` (R102). -/
def initialD (key : Word) : KeyHalf := (permutedKey key).extractLsb' 0 28

/-- Subkey n from the rotated halves: PC-2 of C ‖ D, C the more significant (R106). -/
def subkeyOf (c d : KeyHalf) : Subkey := permute 48 pc2 (c ++ d)

/-- The loop of R107 over the rotation amounts that are left, from the halves of the round before. -/
def subkeysFrom : List Nat → KeyHalf → KeyHalf → List Subkey
  | [], _, _ => []
  | s :: rest, c, d =>
    subkeyOf (rotl28 c s) (rotl28 d s) :: subkeysFrom rest (rotl28 c s) (rotl28 d s)

/-- The loop makes one subkey for each rotation amount. -/
theorem subkeysFrom_length (amounts : List Nat) (c d : KeyHalf) :
    (subkeysFrom amounts c d).length = amounts.length := by
  induction amounts generalizing c d with
  | nil => rfl
  | cons s rest ih => simp [subkeysFrom, ih]

/-- `KeySchedule(key)`, total, with no error case (R107, R109). -/
def keySchedule (key : Word) : Schedule :=
  ⟨(subkeysFrom shift (initialC key) (initialD key)).toArray, by
    rw [List.size_toArray, subkeysFrom_length]; rfl⟩

/-- The sixteen zero subkeys an unused engine holds (R110, R183). -/
def zeroSchedule : Schedule := Vector.replicate 16 0

end Sys2Proof.Machine
end

