-- ==== Sys2Proof/Machine/Operands.lean ====
section
/-! DEFINITION. Operand forms: the register an access names (R22, R52, R56), the context slot a command names (R27, R73), and the
instance a load builds or a block command uses. -/

namespace Sys2Proof.Machine

/-- The offset of a register in the window (R22). -/
def regOffset : Reg → Nat
  | .cmd => 0x00
  | .status => 0x08
  | .key1 => 0x10
  | .key2 => 0x18
  | .key3 => 0x20
  | .din => 0x28
  | .dout => 0x30
  | .caps => 0x38

/-- The register at an offset; only the eight aligned offsets name one (R52). -/
def regAt (off : Nat) : Option Reg :=
  match off with
  | 0x00 => some .cmd
  | 0x08 => some .status
  | 0x10 => some .key1
  | 0x18 => some .key2
  | 0x20 => some .key3
  | 0x28 => some .din
  | 0x30 => some .dout
  | 0x38 => some .caps
  | _ => none

/-- What an access at `off` of `width` bytes reaches. -/
inductive Target
  /-- Past the 64-byte window: not this block (R51). -/
  | outside
  /-- In the window, but not 64 bits wide or not aligned: not defined (R56). -/
  | undefinedAccess
  /-- A register (R52). -/
  | reg (r : Reg)
  deriving DecidableEq, Repr

/-- Sorts an access by its offset and width (R51, R52, R56). -/
def target (off width : Nat) : Target :=
  if 64 ≤ off then .outside
  else if width ≠ 8 then .undefinedAccess
  else
    match regAt off with
    | some r => .reg r
    | none => .undefinedAccess

/-- Slot `c`, or none when the index is `N_CTX` or more (R27, R73). -/
def slotAt (c : Nat) (s : State) : Option Slot := s.ctx[c]?

/-- Puts `sl` into slot `c`; the other slots keep their contents (R27). -/
def setSlot (c : Nat) (sl : Slot) (s : State) : State := { s with ctx := s.ctx.set c sl }

/-- The instance `des.load` builds from key `k`: one engine, the fields of the other two zero (R110, D29). -/
def desInstance (k : Word) : Slot where
  valid := true
  kind := .des
  key := #v[k, 0, 0]
  ks := #v[keySchedule k, zeroSchedule, zeroSchedule]

/-- The instance `tdes.load` builds from the three staged keys: engine `j` holds `KeySchedule(key j)` (R160, R163). -/
def tdesInstance (keys : Vector Word 3) : Slot where
  valid := true
  kind := .tdes
  key := keys
  ks := keys.map keySchedule

/-- What `destroy` leaves of a slot: no instance, keys and schedules zeroed, the kind bit as it was (R183, D18). -/
def clearedSlot (sl : Slot) : Slot :=
  { sl with valid := false, key := Vector.replicate 3 0, ks := Vector.replicate 3 zeroSchedule }

/-- The block `enc` computes with an instance: DES or EDE by its kind (R181). -/
def encryptWith (sl : Slot) (b : Word) : Word :=
  match sl.kind with
  | .des => desEncrypt sl.ks[0] b
  | .tdes => tdesEncrypt sl.ks[0] sl.ks[1] sl.ks[2] b

/-- The block `dec` computes with an instance (R182). -/
def decryptWith (sl : Slot) (b : Word) : Word :=
  match sl.kind with
  | .des => desDecrypt sl.ks[0] b
  | .tdes => tdesDecrypt sl.ks[0] sl.ks[1] sl.ks[2] b

end Sys2Proof.Machine
end

