-- ==== Sys2Proof/Machine/Ops.lean ====
section
/-! DEFINITION. The shared operations: a command on its slot with the BAD_CTX check (R70), register reads and plain register writes
(R54, R55), the mark of an undefined access (R56), and reset (R230).

The block has no trap and no return from one (R204, R205): `raiseError` (Flags.lean) is all an error does. -/

namespace Sys2Proof.Machine

/-- Runs a command's body on slot `c`; an index of `N_CTX` or more fails with BAD_CTX (R70, R73). -/
def withSlot (c : Nat) (s : State) (body : Slot → State) : Host.Outcome State Fault Refusal :=
  match slotAt c s with
  | some sl => .next (body sl)
  | none => .next (raiseError .badCtx s)

/-- Runs a load's effect on slot `c` when it holds no instance; a slot in use fails with SLOT_IN_USE and is not rebound (R29,
R200). -/
def loadInto (c : Nat) (s : State) (sl : Slot) : Host.Outcome State Fault Refusal :=
  withSlot c s fun old =>
    if old.valid then raiseError .slotInUse s else succeed (setSlot c sl s)

/-- Runs a command's effect with the instance in slot `c`; a slot without one fails with NO_INSTANCE (R200). -/
def withInstance (c : Nat) (s : State) (body : Slot → State) : Host.Outcome State Fault Refusal :=
  withSlot c s fun sl =>
    if sl.valid then succeed (body sl) else raiseError .noInstance s

/-- `MemRead(off, 8)` of a register: the value returned; no register has a read side effect (R54).  CAPS holds `N_CTX` (R25). -/
def readReg (r : Reg) (s : State) : Word :=
  match r with
  | .cmd => 0
  | .status => statusWord s
  | .key1 => 0
  | .key2 => 0
  | .key3 => 0
  | .din => s.din
  | .dout => s.dout
  | .caps => BitVec.ofNat 64 s.nCtx

/-- `MemWrite(off, 8, v)` of a register other than CMD: KEY1..KEY3 and DIN take the value, a write to a read-only register has no
effect (R55).  A write to CMD runs a command and is `writeReg` in Access.lean. -/
def writePlain (r : Reg) (v : Word) (s : State) : State :=
  match r with
  | .cmd => s
  | .status => s
  | .key1 => { s with keyStage := s.keyStage.set 0 v }
  | .key2 => { s with keyStage := s.keyStage.set 1 v }
  | .key3 => { s with keyStage := s.keyStage.set 2 v }
  | .din => { s with din := v }
  | .dout => s
  | .caps => s

/-- The effect of an access the spec does not define: the mark is set, and the access has no effect and no value (R56;
log entry 8). -/
def markRefused (s : State) : State := { s with refused := true }

/-- Returns a read's value to the host agent that made it (R54). -/
def reply (agent : Nat) (v : Word) (s : State) : State := { s with replies := ⟨agent, v⟩ :: s.replies }

/-- Slot `c` after a reset with the draws `d`: no instance; the other fields are drawn (R230, R30; log entry 3). -/
def drawnSlot (d : Draws) (c : Nat) : Slot := { d.slots.getD c default with valid := false }

/-- Reset with the draws `d` (R230).  The number of slots, the mark, the accesses still to come and the replies given stay (log
entry 10). -/
def resetWith (d : Draws) (s : State) : State :=
  { s with
    keyStage := d.keyStage
    din := d.din
    dout := d.dout
    errcode := .ok
    errseen := false
    ctx := (List.range s.ctx.length).map (drawnSlot d) }

end Sys2Proof.Machine
end

