-- ==== Sys2Proof/Machine/Block.lean ====
section
/-! DEFINITION. The block commands and the lifecycle command (R181 to R183). -/

namespace Sys2Proof.Machine

/-- `enc c`: DOUT ← the encryption of DIN with the instance in slot `c` (R181). -/
def execEnc (c : Nat) (s : State) : Host.Outcome State Fault Refusal :=
  withInstance c s fun sl => { s with dout := encryptWith sl s.din }

/-- `dec c`: DOUT ← the decryption of DIN with the instance in slot `c` (R182). -/
def execDec (c : Nat) (s : State) : Host.Outcome State Fault Refusal :=
  withInstance c s fun sl => { s with dout := decryptWith sl s.din }

/-- `destroy c`: end the instance in slot `c` and zero its keys and schedules; DOUT and KEY1..KEY3 stay (R183). -/
def execDestroy (c : Nat) (s : State) : Host.Outcome State Fault Refusal :=
  withInstance c s fun sl => setSlot c (clearedSlot sl) s

end Sys2Proof.Machine
end

