-- ==== Sys2Proof/Machine/Load.lean ====
section
/-! DEFINITION. The load commands (R110, R163). -/

namespace Sys2Proof.Machine

/-- `des.load c`: construct a DES engine in slot `c` from KEY1 (R110). -/
def execDesLoad (c : Nat) (s : State) : Host.Outcome State Fault Refusal :=
  loadInto c s (desInstance s.keyStage[0])

/-- `tdes.load c`: construct a Triple-DES composer in slot `c` from KEY1, KEY2 and KEY3 (R163). -/
def execTdesLoad (c : Nat) (s : State) : Host.Outcome State Fault Refusal :=
  loadInto c s (tdesInstance s.keyStage)

end Sys2Proof.Machine
end

