-- ==== Sys2Proof/Machine/Dispatch.lean ====
section
/-! DEFINITION. The meaning of each command, one arm per constructor (R70, R72). -/

namespace Sys2Proof.Machine

def exec (i : Instr) (s : State) : Host.Outcome State Fault Refusal :=
  match i with
  | .desLoad c => Sys2Proof.Machine.execDesLoad c s
  | .tdesLoad c => Sys2Proof.Machine.execTdesLoad c s
  | .enc c => Sys2Proof.Machine.execEnc c s
  | .dec c => Sys2Proof.Machine.execDec c s
  | .destroy c => Sys2Proof.Machine.execDestroy c s

end Sys2Proof.Machine
end

