-- ==== Sys2Proof/Machine/Access.lean ====
section
/-! DEFINITION. What one host access does: `Execute` of a word written to CMD (R70), a register write (R55), a register read (R54),
an access that is not defined (R56) or not in the window (R51), and reset (R230). -/

namespace Sys2Proof.Machine

/-- `Execute(w)`: run the command `w` encodes; a word that is none fails with ILLEGAL_CMD (R70, R74, R75).  The block keeps no copy
of `w` (R23). -/
def execute (w : Word) (s : State) : Host.Outcome State Fault Refusal :=
  match decode w with
  | .ok i => exec i s
  | .error _ => .next (raiseError .illegalCmd s)

/-- `MemWrite(off, 8, v)` of a register (R55). -/
def writeReg (r : Reg) (v : Word) (s : State) : Host.Outcome State Fault Refusal :=
  match r with
  | .cmd => execute v s
  | r => .next (writePlain r v s)

/-- One host access or reset, a single atomic step (R57, R230, R232). -/
def perform (agent : Nat) (e : Event) (s : State) : Host.Outcome State Fault Refusal :=
  match e with
  | .reset d => .next (resetWith d s)
  | .read off width =>
    match target off width with
    | .outside => .fault .outsideWindow
    | .undefinedAccess => .next (markRefused s)
    | .reg r => .next (reply agent (readReg r s) s)
  | .write off width v =>
    match target off width with
    | .outside => .fault .outsideWindow
    | .undefinedAccess => .next (markRefused s)
    | .reg r => writeReg r v s

/-- The state with the access `a` put before all others still to come. -/
def arriveNext (a : Arrival) (s : State) : State := { s with arrivals := a :: s.arrivals }

/-- The arrival of a CMD write of `w` by host agent 0 (R23). -/
def commandArrival (w : Word) : Arrival := ⟨0, .write 0x00 8 w⟩

end Sys2Proof.Machine
end

