-- ==== Sys2Proof/Machine/Step.lean ====
section
/-! DEFINITION. One step of the machine: the next host access of the total order acts on the state (R57, R58).  The block has no
program counter and no step of its own (R20, R21); with no access it waits (R231). -/

namespace Sys2Proof.Machine

/-- One step: the first arriving access is taken and performed; with none, the block waits in its state (R231; log entry 9). -/
def step (s : State) : Host.Outcome State Fault Refusal :=
  match s.arrivals with
  | [] => .next s
  | a :: rest => perform a.agent a.event { s with arrivals := rest }

/-- The state in which a command word stands where the next step takes its command from: a CMD write of that word is the next
access to arrive (R23; log entry 7). -/
def State.withFetchWord (s : State) (nbits w : Nat) : State :=
  arriveNext (commandArrival (tableWord nbits w)) s

end Sys2Proof.Machine
end

