-- ==== Sys2Proof/Machine/HostSyntax.lean ====
section
/-! DEFINITION. The host syntax of R78 and the pseudo-instructions of R79, as the host accesses they stand for. -/

namespace Sys2Proof.Machine

/-- `W <REG>, <value>` (R78). -/
def writeOf (r : Reg) (v : Word) : Event := .write (regOffset r) 8 v

/-- `R <REG>` (R78). -/
def readOf (r : Reg) : Event := .read (regOffset r) 8

/-- `W CMD, <mnemonic> c`; none where the assembler refuses `c` (R78). -/
def commandOf (i : Instr) : Option Event := (assemble i).map (writeOf .cmd)

/-- The pseudo-instructions of R79. -/
inductive Pseudo
  | desNew (c : Nat) (k : Word)
  | tdesNew (c : Nat) (k1 k2 k3 : Word)
  | encrypt (c : Nat) (b : Word)
  | decrypt (c : Nat) (b : Word)
  | free (c : Nat)
  | check
  deriving DecidableEq, Repr

/-- The expansion of a pseudo-instruction: host accesses in order, not one atomic operation (R79, R60). -/
def expandPseudo : Pseudo → Option (List Event)
  | .desNew c k => (commandOf (.desLoad c)).map fun cmd => [writeOf .key1 k, cmd]
  | .tdesNew c k1 k2 k3 =>
    (commandOf (.tdesLoad c)).map fun cmd => [writeOf .key1 k1, writeOf .key2 k2, writeOf .key3 k3, cmd]
  | .encrypt c b => (commandOf (.enc c)).map fun cmd => [writeOf .din b, cmd, readOf .dout]
  | .decrypt c b => (commandOf (.dec c)).map fun cmd => [writeOf .din b, cmd, readOf .dout]
  | .free c => (commandOf (.destroy c)).map fun cmd => [cmd]
  | .check => some [readOf .status]

/-- The accesses of one host agent, in its program order (R58). -/
def arrivalsOf (agent : Nat) (events : List Event) : List Arrival := events.map fun e => ⟨agent, e⟩

end Sys2Proof.Machine
end

