-- ==== Sys2Proof/Safety.lean ====
section
/-! DEFINITION. What a claim may ask of a state: the slot invariant (R28), the invariant of the machine, and a run that holds no
undefined access (R35, R56). -/

namespace Sys2Proof.Machine

/-- Engine `j` of a slot holds the schedule of its key (R28). -/
abbrev engineScheduled (sl : Slot) (j : Fin 3) : Prop := sl.ks[j] = keySchedule sl.key[j]

/-- The slot invariant of R28: a valid slot's engines hold the schedules of their keys, and in a DES slot the fields of the two
unused engines are zero.  A slot without an instance may hold anything (R30). -/
abbrev slotWf (sl : Slot) : Prop :=
  sl.valid = true →
    match sl.kind with
    | .des =>
      engineScheduled sl 0 ∧ sl.key[1] = 0 ∧ sl.key[2] = 0 ∧ sl.ks[1] = zeroSchedule ∧ sl.ks[2] = zeroSchedule
    | .tdes => engineScheduled sl 0 ∧ engineScheduled sl 1 ∧ engineScheduled sl 2

/-- The invariant of the machine. -/
structure StateInv (s : State) : Prop where
  /-- `N_CTX` is in 1..256 (R8). -/
  slots_min : Config.minSlots ≤ s.nCtx
  slots_max : s.nCtx ≤ Config.maxSlots
  /-- Every slot keeps R28. -/
  slots_wf : ∀ sl ∈ s.ctx, slotWf sl
  /-- An ERRCODE that reports an error stands beside ERRSEEN = 1 (R24, R202). -/
  error_seen : s.errcode ≠ .ok → s.errseen = true

/-- No access so far was one the spec does not define (R56).  A claim about the hardware asks it of the LAST state of a run; the
mark is never cleared, so it then held all along (log entry 8). -/
def Trusted (s : State) : Prop := s.refused = false

/-- Two states that differ at most in the contents of slots without an instance, which "cannot be observed" (R30). -/
def SameButDeadSlots (s t : State) : Prop :=
  t = { s with ctx := t.ctx } ∧ t.ctx.length = s.ctx.length ∧
    ∀ (c : Nat) (sl sl' : Slot), s.ctx[c]? = some sl → t.ctx[c]? = some sl' →
      sl' = sl ∨ (sl.valid = false ∧ sl'.valid = false)

/-- `t` is reached from `s` by steps that each answer a next state. -/
inductive Reaches : State → State → Prop
  | refl (s : State) : Reaches s s
  | tail {s t u : State} : Reaches s t → step t = .next u → Reaches s u

end Sys2Proof.Machine
end

