-- ==== Sys2Proof/Certificates/Slice0/Obligations.lean ====
section
/-! DEFINITION. The statements for the provers.  Each docstring names the rules of spec/ the statement formalises.  A host access
stands as the first of `arrivals`; offsets, numbers and masks are written out from the spec. -/

open Sys2Proof Sys2Proof.Machine

/-! ## Encoding -/

/-- Decoding an encoded well-formed command gives it back, its slot index whole (R71, R72, R73, R78). -/
def Obligations.DecodeOfEncodeIsTheCommand : Prop :=
  ∀ i : Instr, i.wellFormed = true → decode (encode i) = .ok i

/-- A word the decoder accepts is a well-formed command's, and is that command's only word (R71, R72, R74). -/
def Obligations.EncodeOfDecodedWordIsTheWord : Prop :=
  ∀ (w : Word) (i : Instr), decode w = .ok i → i.wellFormed = true ∧ encode i = w

/-- The decoder reads a command from a word exactly when the word matches that command's row of the opcode table, and the slot
index is bits [15:8] of the word, unsigned (R71 to R75, opcode_table.json). -/
def Obligations.DecodeAgreesWithTheOpcodeTable : Prop :=
  ∀ (w : Word) (i : Instr),
    decode w = .ok i ↔
      ∃ row ∈ opcodeRows, w &&& row.mask = row.pattern ∧ i.mnemonic = row.mnemonic ∧ i.slot = w.toNat / 256 % 256

/-- Words written out from R71, R72 and R78 decode to their commands. -/
def Obligations.SampleCommandWordsDecode : Prop :=
  decode 0x0000000000000001 = .ok (.desLoad 0) ∧
    decode 0x0000000000000202 = .ok (.tdesLoad 2) ∧
    decode 0x0000000000000203 = .ok (.enc 2) ∧
    decode 0x0000000000000304 = .ok (.dec 3) ∧
    decode 0x000000000000FF05 = .ok (.destroy 255)

/-- A CMD write of a word with a reserved bit set, or with OP 0 or 6..15, fails with ILLEGAL_CMD and changes nothing but STATUS
(R74, R75, R202). -/
def Obligations.IllegalCommandWordChangesOnlyStatus : Prop :=
  ∀ (s : State) (a : Nat) (w : Word) (rest : List Arrival),
    w &&& 0xFFFFFFFFFFFF00F0 ≠ 0 ∨ w.toNat % 16 = 0 ∨ 6 ≤ w.toNat % 16 →
      step { s with arrivals := ⟨a, .write 0x00 8 w⟩ :: rest } =
        .next { s with arrivals := rest, errcode := .illegalCmd, errseen := true }

/-- When the next access is a CMD write of a word that decodes to a command, the step is `exec` of that command on the state
with the access taken, whichever host agent makes it (R23, R57, R70).  The second clause is the model's own choice (log entry 7):
that a command comes to run as the CMD write which `withFetchWord` puts before every other access. -/
def Obligations.StepRunsTheDecodedCommand : Prop :=
  ∀ (s : State) (w : Word) (i : Instr), decode w = .ok i →
    (∀ (a : Nat) (rest : List Arrival),
      step { s with arrivals := ⟨a, .write 0x00 8 w⟩ :: rest } = exec i { s with arrivals := rest }) ∧
    step (s.withFetchWord 64 w.toNat) = exec i s

/-! ## The five commands: what each does on every form, and all it changes -/

/-- `des.load c`: its word; from KEY1 it builds a DES instance in a slot without one; SLOT_IN_USE and BAD_CTX otherwise; nothing
else changes (R110). -/
def Obligations.DesLoadConstructsADesInstance : Prop :=
  ∀ (s : State) (c : Nat),
    (c < 256 → decode (BitVec.ofNat 64 (c * 256 + 1)) = .ok (.desLoad c)) ∧
    (∀ sl, s.ctx[c]? = some sl → sl.valid = false →
      exec (.desLoad c) s = .next { s with
        ctx := s.ctx.set c
          { valid := true
            kind := .des
            key := #v[s.keyStage[0], 0, 0]
            ks := #v[keySchedule s.keyStage[0], Vector.replicate 16 0, Vector.replicate 16 0] }
        errcode := .ok }) ∧
    (∀ sl, s.ctx[c]? = some sl → sl.valid = true →
      exec (.desLoad c) s = .next { s with errcode := .slotInUse, errseen := true }) ∧
    (s.ctx.length ≤ c → exec (.desLoad c) s = .next { s with errcode := .badCtx, errseen := true })

/-- `tdes.load c`: its word; from KEY1, KEY2 and KEY3 it builds a TDES instance in a slot without one; SLOT_IN_USE and BAD_CTX
otherwise; nothing else changes (R160, R163, R164). -/
def Obligations.TdesLoadConstructsATdesInstance : Prop :=
  ∀ (s : State) (c : Nat),
    (c < 256 → decode (BitVec.ofNat 64 (c * 256 + 2)) = .ok (.tdesLoad c)) ∧
    (∀ sl, s.ctx[c]? = some sl → sl.valid = false →
      exec (.tdesLoad c) s = .next { s with
        ctx := s.ctx.set c
          { valid := true
            kind := .tdes
            key := #v[s.keyStage[0], s.keyStage[1], s.keyStage[2]]
            ks := #v[keySchedule s.keyStage[0], keySchedule s.keyStage[1], keySchedule s.keyStage[2]] }
        errcode := .ok }) ∧
    (∀ sl, s.ctx[c]? = some sl → sl.valid = true →
      exec (.tdesLoad c) s = .next { s with errcode := .slotInUse, errseen := true }) ∧
    (s.ctx.length ≤ c → exec (.tdesLoad c) s = .next { s with errcode := .badCtx, errseen := true })

/-- `enc c`: its word; DOUT becomes the DES or EDE encryption of DIN with the instance in slot `c`; NO_INSTANCE and BAD_CTX
otherwise; nothing else changes (R161, R181). -/
def Obligations.EncWritesTheEncryptedBlock : Prop :=
  ∀ (s : State) (c : Nat),
    (c < 256 → decode (BitVec.ofNat 64 (c * 256 + 3)) = .ok (.enc c)) ∧
    (∀ sl, s.ctx[c]? = some sl → sl.valid = true → sl.kind = .des →
      exec (.enc c) s = .next { s with dout := desEncrypt sl.ks[0] s.din, errcode := .ok }) ∧
    (∀ sl, s.ctx[c]? = some sl → sl.valid = true → sl.kind = .tdes →
      exec (.enc c) s = .next { s with
        dout := desEncrypt sl.ks[2] (desDecrypt sl.ks[1] (desEncrypt sl.ks[0] s.din))
        errcode := .ok }) ∧
    (∀ sl, s.ctx[c]? = some sl → sl.valid = false →
      exec (.enc c) s = .next { s with errcode := .noInstance, errseen := true }) ∧
    (s.ctx.length ≤ c → exec (.enc c) s = .next { s with errcode := .badCtx, errseen := true })

/-- `dec c`: its word; DOUT becomes the DES or EDE decryption of DIN with the instance in slot `c`; NO_INSTANCE and BAD_CTX
otherwise; nothing else changes (R162, R182). -/
def Obligations.DecWritesTheDecryptedBlock : Prop :=
  ∀ (s : State) (c : Nat),
    (c < 256 → decode (BitVec.ofNat 64 (c * 256 + 4)) = .ok (.dec c)) ∧
    (∀ sl, s.ctx[c]? = some sl → sl.valid = true → sl.kind = .des →
      exec (.dec c) s = .next { s with dout := desDecrypt sl.ks[0] s.din, errcode := .ok }) ∧
    (∀ sl, s.ctx[c]? = some sl → sl.valid = true → sl.kind = .tdes →
      exec (.dec c) s = .next { s with
        dout := desDecrypt sl.ks[0] (desEncrypt sl.ks[1] (desDecrypt sl.ks[2] s.din))
        errcode := .ok }) ∧
    (∀ sl, s.ctx[c]? = some sl → sl.valid = false →
      exec (.dec c) s = .next { s with errcode := .noInstance, errseen := true }) ∧
    (s.ctx.length ≤ c → exec (.dec c) s = .next { s with errcode := .badCtx, errseen := true })

/-- `destroy c`: its word; slot `c` holds no instance any more and its keys and schedules are zero; NO_INSTANCE and BAD_CTX
otherwise; nothing else changes, DOUT and KEY1..KEY3 among it (R183). -/
def Obligations.DestroyEndsTheInstance : Prop :=
  ∀ (s : State) (c : Nat),
    (c < 256 → decode (BitVec.ofNat 64 (c * 256 + 5)) = .ok (.destroy c)) ∧
    (∀ sl, s.ctx[c]? = some sl → sl.valid = true →
      exec (.destroy c) s = .next { s with
        ctx := s.ctx.set c
          { valid := false
            kind := sl.kind
            key := #v[0, 0, 0]
            ks := Vector.replicate 3 (Vector.replicate 16 0) }
        errcode := .ok }) ∧
    (∀ sl, s.ctx[c]? = some sl → sl.valid = false →
      exec (.destroy c) s = .next { s with errcode := .noInstance, errseen := true }) ∧
    (s.ctx.length ≤ c → exec (.destroy c) s = .next { s with errcode := .badCtx, errseen := true })

/-! ## Errors -/

/-- Every command answers a next state: no command stops or hangs (R214, R241). -/
def Obligations.EveryCommandCompletes : Prop :=
  ∀ (i : Instr) (s : State), ∃ t, exec i s = .next t

/-- A CMD write whose command fails, a word that is no command among them, changes STATUS and nothing else (R202). -/
def Obligations.FailingCommandChangesOnlyStatus : Prop :=
  ∀ (w : Word) (s t : State), execute w s = .next t → t.errcode ≠ .ok →
    t = { s with errcode := t.errcode, errseen := true }

/-- A CMD write whose command succeeds leaves ERRSEEN, KEY1..KEY3, DIN, the mark and the host side as they were (R26, R31, R201). -/
def Obligations.SucceedingCommandChangesOnlySlotsDoutAndErrcode : Prop :=
  ∀ (w : Word) (s t : State), execute w s = .next t → t.errcode = .ok →
    t = { s with ctx := t.ctx, dout := t.dout, errcode := .ok }

/-- Whatever word is written to CMD, the number STATUS.ERRCODE then holds is that of the first check that fails: reserved bits or
OP (1), the slot index (2), the state of the slot (4 for a load, 3 for the others), and 0 when none fails (R200, R203). -/
def Obligations.ErrorCodeIsTheFirstFailingCheck : Prop :=
  ∀ (s : State) (a : Nat) (w : Word) (rest : List Arrival),
    ∃ t, step { s with arrivals := ⟨a, .write 0x00 8 w⟩ :: rest } = .next t ∧
      (errcodeNumber t.errcode).toNat =
        if w &&& 0xFFFFFFFFFFFF00F0 ≠ 0 then 1
        else if w.toNat % 16 = 0 ∨ 6 ≤ w.toNat % 16 then 1
        else if s.ctx.length ≤ w.toNat / 256 % 256 then 2
        else if (s.ctx[w.toNat / 256 % 256]?).any (·.valid) then (if w.toNat % 16 ≤ 2 then 4 else 0)
        else (if w.toNat % 16 ≤ 2 then 0 else 3)

/-- ERRSEEN is sticky: no access but a reset clears it, and it is set only together with an ERRCODE that reports an error (R24,
R205). -/
def Obligations.ErrseenIsStickyUntilReset : Prop :=
  ∀ s t : State, step s = .next t → (∀ a d, s.arrivals.head? ≠ some ⟨a, .reset d⟩) →
    (s.errseen = true → t.errseen = true) ∧ (s.errseen = false → t.errseen = true → t.errcode ≠ .ok)

/-! ## Slots and data registers -/

/-- A valid slot is changed only by its own `destroy` and by reset, and a load aimed at it fails with SLOT_IN_USE and does not
rebind it (R29). -/
def Obligations.ValidSlotChangesOnlyByItsDestroyOrReset : Prop :=
  (∀ (s t : State) (c : Nat) (sl : Slot), step s = .next t → s.ctx[c]? = some sl → sl.valid = true →
    (∀ a d, s.arrivals.head? ≠ some ⟨a, .reset d⟩) →
    (∀ a w, s.arrivals.head? = some ⟨a, .write 0x00 8 w⟩ → decode w ≠ .ok (.destroy c)) →
      t.ctx[c]? = some sl) ∧
  (∀ (s : State) (c : Nat) (sl : Slot), s.ctx[c]? = some sl → sl.valid = true →
    ∀ i, i = .desLoad c ∨ i = .tdesLoad c →
      exec i s = .next { s with errcode := .slotInUse, errseen := true })

/-- A command changes no slot but the one it names, and never how many there are (R27). -/
def Obligations.CommandTouchesOnlyItsSlot : Prop :=
  ∀ (i : Instr) (s t : State), exec i s = .next t →
    t.ctx.length = s.ctx.length ∧ ∀ c, c ≠ i.slot → t.ctx[c]? = s.ctx[c]?

/-- DOUT changes only by a successful `enc` or `dec` and by reset (R32, R230). -/
def Obligations.DoutChangesOnlyByEncDecOrReset : Prop :=
  ∀ s t : State, step s = .next t → t.dout ≠ s.dout →
    (∃ a d, s.arrivals.head? = some ⟨a, .reset d⟩) ∨
      ∃ a w c, s.arrivals.head? = some ⟨a, .write 0x00 8 w⟩ ∧
        (decode w = .ok (.enc c) ∨ decode w = .ok (.dec c)) ∧ t.errcode = .ok

/-- KEY1..KEY3 change only by a host write to one of them, DIN only by a host write to it, and both by reset: no command changes
them (R26, R31, R230). -/
def Obligations.StagingChangesOnlyByHostWriteOrReset : Prop :=
  ∀ s t : State, step s = .next t →
    (t.keyStage ≠ s.keyStage →
      (∃ a d, s.arrivals.head? = some ⟨a, .reset d⟩) ∨
        ∃ a off v, (off = 0x10 ∨ off = 0x18 ∨ off = 0x20) ∧ s.arrivals.head? = some ⟨a, .write off 8 v⟩) ∧
    (t.din ≠ s.din →
      (∃ a d, s.arrivals.head? = some ⟨a, .reset d⟩) ∨ ∃ a v, s.arrivals.head? = some ⟨a, .write 0x28 8 v⟩)

/-- What `enc` and `dec` write to DOUT depends only on the kind and the schedules of the slot and on DIN: in any two states that
agree on these, whatever else they hold and whichever slots these are, the results are equal (R34, R184). -/
def Obligations.BlockResultDependsOnlyOnInstanceAndDin : Prop :=
  ∀ (s₁ s₂ : State) (c₁ c₂ : Nat) (sl₁ sl₂ : Slot),
    s₁.ctx[c₁]? = some sl₁ → s₂.ctx[c₂]? = some sl₂ → sl₁.valid = true → sl₂.valid = true →
    sl₁.kind = sl₂.kind → sl₁.ks = sl₂.ks → s₁.din = s₂.din →
      (∃ t₁ t₂, exec (.enc c₁) s₁ = .next t₁ ∧ exec (.enc c₂) s₂ = .next t₂ ∧ t₁.dout = t₂.dout) ∧
      (∃ t₁ t₂, exec (.dec c₁) s₁ = .next t₁ ∧ exec (.dec c₂) s₂ = .next t₂ ∧ t₁.dout = t₂.dout)

/-- On the same slot, `dec` of what `enc` wrote gives the block back, and `enc` of what `dec` wrote does (R152, R167, R182). -/
def Obligations.DecUndoesEncOnTheSameSlot : Prop :=
  ∀ (s : State) (c : Nat) (sl : Slot), s.ctx[c]? = some sl → sl.valid = true →
    (∃ t, exec (.enc c) s = .next t ∧
      ∃ u, exec (.dec c) { t with din := t.dout } = .next u ∧ u.dout = s.din ∧ u.errcode = .ok) ∧
    (∃ t, exec (.dec c) s = .next t ∧
      ∃ u, exec (.enc c) { t with din := t.dout } = .next u ∧ u.dout = s.din ∧ u.errcode = .ok)

/-- In a state that keeps the invariant, `enc` and `dec` compute the cipher of the KEYS the slot owns: a block that recomputes the
schedule from the stored key at each use gives the same results as one that stores it (R28, R154). -/
def Obligations.StoredSchedulesActAsRecomputedOnes : Prop :=
  ∀ (s : State) (c : Nat) (sl : Slot), StateInv s → s.ctx[c]? = some sl → sl.valid = true →
    (sl.kind = .des →
      (∃ t, exec (.enc c) s = .next t ∧ t.dout = desEncrypt (keySchedule sl.key[0]) s.din) ∧
      ∃ t, exec (.dec c) s = .next t ∧ t.dout = desDecrypt (keySchedule sl.key[0]) s.din) ∧
    (sl.kind = .tdes →
      (∃ t, exec (.enc c) s = .next t ∧
        t.dout = tdesEncrypt (keySchedule sl.key[0]) (keySchedule sl.key[1]) (keySchedule sl.key[2]) s.din) ∧
      ∃ t, exec (.dec c) s = .next t ∧
        t.dout = tdesDecrypt (keySchedule sl.key[0]) (keySchedule sl.key[1]) (keySchedule sl.key[2]) s.din)

/-- What a slot without an instance holds cannot be observed: two states that differ only there take the same steps, give the same
replies and show the same registers, and go on differing at most there (R30). -/
def Obligations.DeadSlotContentsCannotBeObserved : Prop :=
  ∀ s₁ s₂ t₁ : State, SameButDeadSlots s₁ s₂ → step s₁ = .next t₁ →
    ∃ t₂, step s₂ = .next t₂ ∧ SameButDeadSlots t₁ t₂

/-- A valid slot is given a new key by `destroy` and a load, of either kind: each load alone fails and leaves the slot; after
`destroy`, `enc` gets NO_INSTANCE, `des.load` binds KEY1 and `tdes.load` binds KEY1, KEY2 and KEY3, with their schedules (R247). -/
def Obligations.RekeyingTakesDestroyThenLoad : Prop :=
  ∀ (s : State) (c : Nat) (sl : Slot), s.ctx[c]? = some sl → sl.valid = true →
    (∀ i, i = .desLoad c ∨ i = .tdesLoad c → exec i s = .next { s with errcode := .slotInUse, errseen := true }) ∧
    ∃ t, exec (.destroy c) s = .next t ∧
      exec (.enc c) t = .next { t with errcode := .noInstance, errseen := true } ∧
      (∃ u new, exec (.desLoad c) t = .next u ∧ u.errcode = .ok ∧ u.ctx[c]? = some new ∧ new.valid = true ∧
        new.kind = .des ∧ new.key[0] = s.keyStage[0] ∧ new.ks[0] = keySchedule s.keyStage[0]) ∧
      ∃ u new, exec (.tdesLoad c) t = .next u ∧ u.errcode = .ok ∧ u.ctx[c]? = some new ∧ new.valid = true ∧
        new.kind = .tdes ∧
        ∀ (j : Nat) (h : j < 3), new.key[j] = s.keyStage[j] ∧ new.ks[j] = keySchedule s.keyStage[j]

/-! ## Host accesses -/

/-- A 64-bit read of each of the eight registers returns its value to the agent that reads and changes nothing else (R54). -/
def Obligations.RegisterReadsReturnTheirValues : Prop :=
  ∀ (s : State) (a : Nat) (rest : List Arrival) (off : Nat) (v : Word),
    (off, v) ∈
      [(0x00, 0), (0x08, BitVec.ofNat 64 ((if s.errseen then 256 else 0) + (errcodeNumber s.errcode).toNat)),
        (0x10, 0), (0x18, 0), (0x20, 0), (0x28, s.din), (0x30, s.dout), (0x38, BitVec.ofNat 64 s.ctx.length)] →
      step { s with arrivals := ⟨a, .read off 8⟩ :: rest } =
        .next { s with arrivals := rest, replies := ⟨a, v⟩ :: s.replies }

/-- A 64-bit write stores the value in KEY1, KEY2, KEY3 or DIN, has no effect on STATUS, DOUT and CAPS, and on CMD runs
`Execute`; nothing else changes (R55). -/
def Obligations.RegisterWritesHaveTheirEffects : Prop :=
  ∀ (s : State) (a : Nat) (rest : List Arrival) (v : Word),
    step { s with arrivals := ⟨a, .write 0x00 8 v⟩ :: rest } = execute v { s with arrivals := rest } ∧
    step { s with arrivals := ⟨a, .write 0x10 8 v⟩ :: rest } =
      .next { s with arrivals := rest, keyStage := #v[v, s.keyStage[1], s.keyStage[2]] } ∧
    step { s with arrivals := ⟨a, .write 0x18 8 v⟩ :: rest } =
      .next { s with arrivals := rest, keyStage := #v[s.keyStage[0], v, s.keyStage[2]] } ∧
    step { s with arrivals := ⟨a, .write 0x20 8 v⟩ :: rest } =
      .next { s with arrivals := rest, keyStage := #v[s.keyStage[0], s.keyStage[1], v] } ∧
    step { s with arrivals := ⟨a, .write 0x28 8 v⟩ :: rest } = .next { s with arrivals := rest, din := v } ∧
    ∀ off, off = 0x08 ∨ off = 0x30 ∨ off = 0x38 →
      step { s with arrivals := ⟨a, .write off 8 v⟩ :: rest } = .next { s with arrivals := rest }

/-- An access in the window that is not 64 bits wide or not aligned sets the `refused` mark and has no effect and no value
(R56). -/
def Obligations.UndefinedAccessOnlySetsTheMark : Prop :=
  ∀ (s : State) (a off width : Nat) (v : Word) (rest : List Arrival),
    off < 64 → width ≠ 8 ∨ off % 8 ≠ 0 →
      step { s with arrivals := ⟨a, .read off width⟩ :: rest } = .next { s with arrivals := rest, refused := true } ∧
      step { s with arrivals := ⟨a, .write off width v⟩ :: rest } = .next { s with arrivals := rest, refused := true }

/-- The mark is never cleared, and only an undefined access sets it (R35, R56, R230). -/
def Obligations.RefusedMarkIsSetOnlyByUndefinedAccessAndStays : Prop :=
  ∀ s t : State, step s = .next t →
    (t.refused = true ↔
      s.refused = true ∨
        ∃ a off width, off < 64 ∧ (width ≠ 8 ∨ off % 8 ≠ 0) ∧
          (s.arrivals.head? = some ⟨a, .read off width⟩ ∨ ∃ v, s.arrivals.head? = some ⟨a, .write off width v⟩))

/-- When the last state of a run is trusted, the first was: a run whose last state has no mark holds no undefined access (R35). -/
def Obligations.TrustedLastStateMeansTrustedRun : Prop :=
  ∀ s t : State, Reaches s t → Trusted t → Trusted s

/-- A step stops exactly on an access past the 64-byte window, which does not reach this block (R51), and always with that fault;
no step is refused.  The fault is the model's form of R51 (log entry 6). -/
def Obligations.StepStopsOnlyOutsideTheWindow : Prop :=
  (∀ s r, step s ≠ .refused r) ∧
    ∀ s f, step s = .fault f ↔
      f = .outsideWindow ∧ ∃ a off width, 64 ≤ off ∧
        (s.arrivals.head? = some ⟨a, .read off width⟩ ∨ ∃ v, s.arrivals.head? = some ⟨a, .write off width v⟩)

/-- With no access to perform, a step leaves the state as it is.  This is the model's inference (log entry 9, DEDUCED) from R20 and
R231, by which the block has no step of its own and waits for host accesses. -/
def Obligations.BlockWaitsWithoutAnAccess : Prop :=
  ∀ s : State, s.arrivals = [] → step s = .next s

/-- What a read returns does not depend on the staged keys or on what any slot holds: two states that agree on DIN, DOUT, STATUS
and `N_CTX` give the same reply to the same access (R26, R208). -/
def Obligations.ReadsDoNotRevealKeysOrSchedules : Prop :=
  ∀ (s₁ s₂ t₁ t₂ : State) (a off width : Nat) (rest : List Arrival),
    s₁.arrivals = ⟨a, .read off width⟩ :: rest → s₂.arrivals = ⟨a, .read off width⟩ :: rest →
    s₁.din = s₂.din → s₁.dout = s₂.dout → s₁.errcode = s₂.errcode → s₁.errseen = s₂.errseen →
    s₁.ctx.length = s₂.ctx.length → s₁.replies = s₂.replies →
    step s₁ = .next t₁ → step s₂ = .next t₂ → t₁.replies = t₂.replies

/-- Which host agent makes an access makes no difference to the block: there is one privilege level (R208, R213). -/
def Obligations.AnyAgentHasTheSameEffect : Prop :=
  ∀ (s t : State) (a b : Nat) (e : Event) (rest : List Arrival),
    step { s with arrivals := ⟨a, e⟩ :: rest } = .next t →
      ∃ u, step { s with arrivals := ⟨b, e⟩ :: rest } = .next u ∧
        { u with replies := [] } = { t with replies := [] } ∧
        u.replies.map (·.value) = t.replies.map (·.value)

/-- A read of DOUT straight after an `enc` or `dec` of a slot with an instance returns that command's result (R242). -/
def Obligations.ReadAfterBlockCommandReturnsItsResult : Prop :=
  ∀ (s : State) (a b c : Nat) (sl : Slot) (rest : List Arrival), c < 256 → s.ctx[c]? = some sl → sl.valid = true →
    Host.Core.run Sys2Proof.core 2
        { s with arrivals := ⟨a, .write 0x00 8 (encode (.enc c))⟩ :: ⟨b, .read 0x30 8⟩ :: rest } =
      .next { s with
        dout := encryptWith sl s.din
        errcode := .ok
        arrivals := rest
        replies := ⟨b, encryptWith sl s.din⟩ :: s.replies } ∧
    Host.Core.run Sys2Proof.core 2
        { s with arrivals := ⟨a, .write 0x00 8 (encode (.dec c))⟩ :: ⟨b, .read 0x30 8⟩ :: rest } =
      .next { s with
        dout := decryptWith sl s.din
        errcode := .ok
        arrivals := rest
        replies := ⟨b, decryptWith sl s.din⟩ :: s.replies }

/-- The host sequence of R233 for single DES, in the order listed there, on any state whose slot `c` holds no instance: write KEY1,
`des.load c`, write DIN, `enc c` or `dec c`, read STATUS, read DOUT.  STATUS shows ERRCODE 0 beside the ERRSEEN of before, and DOUT
is the encryption, or the decryption, of the block under the key. -/
def Obligations.DesSequenceReturnsTheCiphertext : Prop :=
  ∀ (s : State) (a c : Nat) (sl : Slot) (k b : Word) (i : Instr) (result : Word) (rest : List Arrival),
    c < 256 → s.ctx[c]? = some sl → sl.valid = false →
    (i, result) ∈ [(.enc c, desEncrypt (keySchedule k) b), (.dec c, desDecrypt (keySchedule k) b)] →
    s.arrivals =
      arrivalsOf a
        [.write 0x10 8 k, .write 0x00 8 (encode (.desLoad c)), .write 0x28 8 b, .write 0x00 8 (encode i),
          .read 0x08 8, .read 0x30 8] ++ rest →
    ∃ t, Host.Core.run Sys2Proof.core 6 s = .next t ∧ t.arrivals = rest ∧
      t.replies = ⟨a, result⟩ :: ⟨a, BitVec.ofNat 64 (if s.errseen then 256 else 0)⟩ :: s.replies

/-- The host sequence of R233 for Triple-DES, in the order listed there: write KEY1, KEY2 and KEY3, `tdes.load c`, write DIN,
`enc c` or `dec c`, read STATUS, read DOUT.  STATUS shows ERRCODE 0 beside the ERRSEEN of before, and DOUT is the EDE encryption, or
decryption, of the block under the three keys. -/
def Obligations.TdesSequenceReturnsTheCiphertext : Prop :=
  ∀ (s : State) (a c : Nat) (sl : Slot) (k₁ k₂ k₃ b : Word) (i : Instr) (result : Word) (rest : List Arrival),
    c < 256 → s.ctx[c]? = some sl → sl.valid = false →
    (i, result) ∈
      [(.enc c, tdesEncrypt (keySchedule k₁) (keySchedule k₂) (keySchedule k₃) b),
        (.dec c, tdesDecrypt (keySchedule k₁) (keySchedule k₂) (keySchedule k₃) b)] →
    s.arrivals =
      arrivalsOf a
        [.write 0x10 8 k₁, .write 0x18 8 k₂, .write 0x20 8 k₃, .write 0x00 8 (encode (.tdesLoad c)), .write 0x28 8 b,
          .write 0x00 8 (encode i), .read 0x08 8, .read 0x30 8] ++ rest →
    ∃ t, Host.Core.run Sys2Proof.core 8 s = .next t ∧ t.arrivals = rest ∧
      t.replies = ⟨a, result⟩ :: ⟨a, BitVec.ofNat 64 (if s.errseen then 256 else 0)⟩ :: s.replies

/-- The pseudo-instructions expand to exactly the accesses of the table of R79, with the offsets of R22 and the words of R78. -/
def Obligations.PseudoInstructionsExpandAsTabled : Prop :=
  ∀ (c : Nat) (k k₁ k₂ k₃ b : Word), c < 256 →
    expandPseudo (.desNew c k) = some [.write 0x10 8 k, .write 0x00 8 (BitVec.ofNat 64 (c * 256 + 1))] ∧
    expandPseudo (.tdesNew c k₁ k₂ k₃) =
      some [.write 0x10 8 k₁, .write 0x18 8 k₂, .write 0x20 8 k₃, .write 0x00 8 (BitVec.ofNat 64 (c * 256 + 2))] ∧
    expandPseudo (.encrypt c b) =
      some [.write 0x28 8 b, .write 0x00 8 (BitVec.ofNat 64 (c * 256 + 3)), .read 0x30 8] ∧
    expandPseudo (.decrypt c b) =
      some [.write 0x28 8 b, .write 0x00 8 (BitVec.ofNat 64 (c * 256 + 4)), .read 0x30 8] ∧
    expandPseudo (.free c) = some [.write 0x00 8 (BitVec.ofNat 64 (c * 256 + 5))] ∧
    expandPseudo .check = some [.read 0x08 8]

/-! ## Reset and the invariant -/

/-- Reset, for every draw: STATUS 0, every slot without an instance, the mark and the number of slots as they were (R230).  The
rest is the model's own choice: KEY1..KEY3, DIN and DOUT take the draws that the reset event carries (log entry 3), and the
accesses to come and the replies given stay (log entry 10). -/
def Obligations.ResetLeavesNoInstanceAndStatusZero : Prop :=
  ∀ (s : State) (a : Nat) (d : Draws) (rest : List Arrival),
    ∃ t, step { s with arrivals := ⟨a, .reset d⟩ :: rest } = .next t ∧
      t.errcode = .ok ∧ t.errseen = false ∧
      t.keyStage = d.keyStage ∧ t.din = d.din ∧ t.dout = d.dout ∧
      t.refused = s.refused ∧ t.arrivals = rest ∧ t.replies = s.replies ∧
      t.ctx.length = s.ctx.length ∧ ∀ (c : Nat) (sl : Slot), t.ctx[c]? = some sl → sl.valid = false

/-- The state right after reset: STATUS reads 0 and no slot holds an instance (R22, R24, R230).  That the mark is not set, no access
is waiting and no reply was given are the model's own values of its own fields (log entries 4, 5, 7 and 8).  Nothing is said of the
free values or of how many slots there are (log entries 1 and 2). -/
def Obligations.ResetStateHasTheStatedValues : Prop :=
  statusWord State.reset = 0 ∧ (∀ sl ∈ State.reset.ctx, sl.valid = false) ∧ State.reset.refused = false ∧
    State.reset.arrivals = [] ∧ State.reset.replies = []

/-- `State.reset` satisfies the invariant; its number of slots is the model's choice (log entry 1). -/
def Obligations.ResetStateSatisfiesTheInvariant : Prop :=
  StateInv State.reset

/-- Every step keeps the invariant: `N_CTX` in 1..256, the schedule invariant of every slot (R28), and ERRSEEN = 1 beside an
ERRCODE that reports an error. -/
def Obligations.StepKeepsTheInvariant : Prop :=
  ∀ s t : State, StateInv s → step s = .next t → StateInv t

/-! ## The cipher -/

/-- Entry `j` of a table names the input bit that becomes output bit `j`, in FIPS numbering (R11). -/
def Obligations.PermuteSelectsTheNamedBits : Prop :=
  ∀ (n : Nat) (table : List Nat) (v : BitVec n) (j : Nat) (h : j < table.length),
    fbit (permute table.length table v) (j + 1) = fbit v table[j]

/-- Subkey n is PC-2 of Cn ‖ Dn, where Cn and Dn are C0 and D0 rotated left by the sum of the amounts of rounds 1..n; the sixteen
amounts add up to 28, so C16 = C0 and D16 = D0 (R102, R104, R106). -/
def Obligations.SubkeysComeFromCumulativeRotations : Prop :=
  (∀ (key : Word) (n : Nat) (h : n < 16),
    (keySchedule key)[n] =
      permute 48 pc2
        (((permute 56 pc1 key).extractLsb' 28 28).rotateLeft (shift.take (n + 1)).sum ++
          ((permute 56 pc1 key).extractLsb' 0 28).rotateLeft (shift.take (n + 1)).sum)) ∧
  ∀ x : KeyHalf, x.rotateLeft shift.sum = x

/-- Flipping parity bits of a key changes no subkey; and whatever parity the staged keys have, a load of either kind into a slot
without an instance ends with ERRCODE 0, and flipping parity bits of any of them changes no schedule that it stores (R108, R163). -/
def Obligations.ParityBitsAreIgnored : Prop :=
  (∀ k p : Word, p &&& 0xFEFEFEFEFEFEFEFE = 0 → keySchedule (k ^^^ p) = keySchedule k) ∧
  ∀ (s : State) (c : Nat) (sl : Slot) (i : Instr) (p₁ p₂ p₃ : Word),
    s.ctx[c]? = some sl → sl.valid = false → i = .desLoad c ∨ i = .tdesLoad c →
    (∀ p ∈ [p₁, p₂, p₃], p &&& 0xFEFEFEFEFEFEFEFE = 0) →
    ∃ t u x y, exec i s = .next t ∧ t.errcode = .ok ∧ t.ctx[c]? = some x ∧
      exec i { s with keyStage := #v[s.keyStage[0] ^^^ p₁, s.keyStage[1] ^^^ p₂, s.keyStage[2] ^^^ p₃] } = .next u ∧
      u.errcode = .ok ∧ u.ctx[c]? = some y ∧ y.kind = x.kind ∧ y.ks = x.ks

/-- A key whose 56 bits of key material are all 0, as 0x0101010101010101, gives sixteen zero subkeys, and one whose bits of key
material are all 1 gives sixteen subkeys of ones (R109; 95_test_vectors.md V9). -/
def Obligations.ExtremeKeysGiveConstantSchedules : Prop :=
  ∀ k : Word,
    (k &&& 0xFEFEFEFEFEFEFEFE = 0 → keySchedule k = Vector.replicate 16 0) ∧
    (k &&& 0xFEFEFEFEFEFEFEFE = 0xFEFEFEFEFEFEFEFE → keySchedule k = Vector.replicate 16 0xFFFFFFFFFFFF)

/-- There are eight S-boxes of 64 entries, and every row of each holds each value 0..15 exactly once (R145). -/
def Obligations.SboxRowsArePermutations : Prop :=
  sboxes.length = 8 ∧
    ∀ table ∈ sboxes, table.length = 64 ∧
      ∀ row < 4, ∀ v < 16, ((table.drop (16 * row)).take 16).count v = 1

/-- FP undoes IP and IP undoes FP, for every block (R149). -/
def Obligations.FinalPermutationIsTheInverseOfTheInitial : Prop :=
  ∀ v : Word, permute 64 fp (permute 64 ip v) = v ∧ permute 64 ip (permute 64 fp v) = v

/-- One round sends (L, R) to (R, L XOR f(R, K)), and f is P of the eight S-box outputs of E(R) XOR K, the box and the six bits of
group i being those of R135 and R136 (R147, R148). -/
def Obligations.RoundFunctionLooksUpTheSixBitGroups : Prop :=
  (∀ (l r : Half) (k : Subkey), feistelRound (l, r) k = (r, l ^^^ roundF r k)) ∧
  ∀ (r : Half) (k : Subkey),
    ∃ y : Half, roundF r k = permute 32 pTable y ∧
      ∀ (i : Nat) (h : i < sboxes.length),
        ∃ b : BitVec 6, b = (permute 48 expansion r ^^^ k).extractLsb' (42 - 6 * i) 6 ∧
          y.extractLsb' (28 - 4 * i) 4 =
            BitVec.ofNat 4 ((sboxes[i])[16 * (b.toNat / 32 * 2 + b.toNat % 2) + b.toNat / 2 % 16]!)

/-- For every schedule, in particular every key's, decryption undoes encryption and encryption undoes decryption (R152). -/
def Obligations.DesDecryptInvertsDesEncrypt : Prop :=
  ∀ (ks : Schedule) (b : Word), desDecrypt ks (desEncrypt ks b) = b ∧ desEncrypt ks (desDecrypt ks b) = b

/-- The complementation property: complementing the key and the block complements the result, for encryption and for decryption
(95_test_vectors.md V11). -/
def Obligations.ComplementedKeyAndBlockComplementTheResult : Prop :=
  ∀ k b : Word,
    desEncrypt (keySchedule (~~~k)) (~~~b) = ~~~(desEncrypt (keySchedule k) b) ∧
    desDecrypt (keySchedule (~~~k)) (~~~b) = ~~~(desDecrypt (keySchedule k) b)

/-- Where all sixteen subkeys are equal, decryption is encryption (R150; 95_test_vectors.md V9). -/
def Obligations.EqualSubkeysMakeDecryptionEncryption : Prop :=
  ∀ (ks : Schedule) (k : Subkey), (∀ (i : Nat) (h : i < 16), ks[i] = k) → ∀ b, desDecrypt ks b = desEncrypt ks b

/-- EDE decryption undoes EDE encryption, for all three schedules and every block, and the other way round (R167). -/
def Obligations.TdesDecryptInvertsTdesEncrypt : Prop :=
  ∀ (ks₀ ks₁ ks₂ : Schedule) (b : Word),
    tdesDecrypt ks₀ ks₁ ks₂ (tdesEncrypt ks₀ ks₁ ks₂ b) = b ∧
    tdesEncrypt ks₀ ks₁ ks₂ (tdesDecrypt ks₀ ks₁ ks₂ b) = b

/-- With three equal keys the composer is single DES, for encryption and decryption (R166). -/
def Obligations.TdesWithEqualKeysIsDes : Prop :=
  ∀ k b : Word,
    tdesEncrypt (keySchedule k) (keySchedule k) (keySchedule k) b = desEncrypt (keySchedule k) b ∧
    tdesDecrypt (keySchedule k) (keySchedule k) (keySchedule k) b = desDecrypt (keySchedule k) b

/-- With k1 = k2 EDE encryption is DES under k3, and with k2 = k3 it is DES under k1 (R168). -/
def Obligations.TdesWithTwoEqualNeighboursIsDes : Prop :=
  ∀ k k' b : Word,
    tdesEncrypt (keySchedule k) (keySchedule k) (keySchedule k') b = desEncrypt (keySchedule k') b ∧
    tdesEncrypt (keySchedule k') (keySchedule k) (keySchedule k) b = desEncrypt (keySchedule k') b
end

