-- ==== Sys2Proof/Laws/Bits.lean ====
section
/-! SUPPORT. The bit-level laws of the permutation primitive and of the 28-bit rotation. -/

namespace Sys2Proof.Machine

/-- The loop of `permute` from any start: the entries read so far sit in the low bits, the last at bit 0, and the start above
them. -/
theorem permute_loop_getLsbD {m n : Nat} (v : BitVec n) (table : List Nat) (r : BitVec m) (i : Nat) (hi : i < m) :
    (table.foldl (fun (r : BitVec m) t => (r <<< 1) ||| (BitVec.ofBool (v.getLsbD (n - t))).setWidth m) r).getLsbD i =
      if h : i < table.length then v.getLsbD (n - table[table.length - 1 - i]) else r.getLsbD (i - table.length) := by
  induction table generalizing r with
  | nil => simp
  | cons t rest ih =>
    rw [List.foldl_cons, ih]
    by_cases h1 : i < rest.length
    · have h2 : rest.length - i = (rest.length - 1 - i) + 1 := by omega
      have h3 : i < rest.length + 1 := by omega
      simp [h1, h3, h2]
    · by_cases h2 : i = rest.length
      · subst h2
        simp
        omega
      · have h3 : ¬ i < rest.length + 1 := by omega
        have h4 : i - (rest.length + 1) = i - rest.length - 1 := by omega
        have h5 : i - rest.length < m := by omega
        have h6 : i - rest.length ≠ 0 := by omega
        simp [h1, h3, h4, h5, h6, BitVec.getLsbD_eq_getElem (show i - rest.length - 1 < m by omega)]

/-- Bit `i` of a permuted value is the input bit that the table's entry, counted from its end, names. -/
theorem permute_getLsbD {m n : Nat} (table : List Nat) (v : BitVec n) (hm : table.length = m) (i : Nat) (hi : i < m) :
    (permute m table v).getLsbD i = v.getLsbD (n - table[m - 1 - i]'(by omega)) := by
  subst hm
  unfold permute
  rw [permute_loop_getLsbD v table 0#_ i hi, dif_pos hi]

end Sys2Proof.Machine
end

