-- ==== Sys2Proof/Laws/State.lean ====
section
/-! SUPPORT. What each shared update of the state leaves in each field, true by `rfl`, so that no later proof unfolds a record
update. -/

namespace Sys2Proof.Machine

/-! `succeed` writes ERRCODE only (R201). -/

@[simp] theorem succeed_keyStage (s : State) : (succeed s).keyStage = s.keyStage := rfl
@[simp] theorem succeed_din (s : State) : (succeed s).din = s.din := rfl
@[simp] theorem succeed_dout (s : State) : (succeed s).dout = s.dout := rfl
@[simp] theorem succeed_errcode (s : State) : (succeed s).errcode = .ok := rfl
@[simp] theorem succeed_errseen (s : State) : (succeed s).errseen = s.errseen := rfl
@[simp] theorem succeed_ctx (s : State) : (succeed s).ctx = s.ctx := rfl
@[simp] theorem succeed_refused (s : State) : (succeed s).refused = s.refused := rfl
@[simp] theorem succeed_arrivals (s : State) : (succeed s).arrivals = s.arrivals := rfl
@[simp] theorem succeed_replies (s : State) : (succeed s).replies = s.replies := rfl

/-! `raiseError` writes STATUS only (R202). -/

@[simp] theorem raiseError_keyStage (code : ErrCode) (s : State) : (raiseError code s).keyStage = s.keyStage := rfl
@[simp] theorem raiseError_din (code : ErrCode) (s : State) : (raiseError code s).din = s.din := rfl
@[simp] theorem raiseError_dout (code : ErrCode) (s : State) : (raiseError code s).dout = s.dout := rfl
@[simp] theorem raiseError_errcode (code : ErrCode) (s : State) : (raiseError code s).errcode = code := rfl
@[simp] theorem raiseError_errseen (code : ErrCode) (s : State) : (raiseError code s).errseen = true := rfl
@[simp] theorem raiseError_ctx (code : ErrCode) (s : State) : (raiseError code s).ctx = s.ctx := rfl
@[simp] theorem raiseError_refused (code : ErrCode) (s : State) : (raiseError code s).refused = s.refused := rfl
@[simp] theorem raiseError_arrivals (code : ErrCode) (s : State) : (raiseError code s).arrivals = s.arrivals := rfl
@[simp] theorem raiseError_replies (code : ErrCode) (s : State) : (raiseError code s).replies = s.replies := rfl

/-! `setSlot` writes the slots only. -/

@[simp] theorem setSlot_keyStage (c : Nat) (sl : Slot) (s : State) : (setSlot c sl s).keyStage = s.keyStage := rfl
@[simp] theorem setSlot_din (c : Nat) (sl : Slot) (s : State) : (setSlot c sl s).din = s.din := rfl
@[simp] theorem setSlot_dout (c : Nat) (sl : Slot) (s : State) : (setSlot c sl s).dout = s.dout := rfl
@[simp] theorem setSlot_errcode (c : Nat) (sl : Slot) (s : State) : (setSlot c sl s).errcode = s.errcode := rfl
@[simp] theorem setSlot_errseen (c : Nat) (sl : Slot) (s : State) : (setSlot c sl s).errseen = s.errseen := rfl
@[simp] theorem setSlot_ctx (c : Nat) (sl : Slot) (s : State) : (setSlot c sl s).ctx = s.ctx.set c sl := rfl
@[simp] theorem setSlot_refused (c : Nat) (sl : Slot) (s : State) : (setSlot c sl s).refused = s.refused := rfl
@[simp] theorem setSlot_arrivals (c : Nat) (sl : Slot) (s : State) : (setSlot c sl s).arrivals = s.arrivals := rfl
@[simp] theorem setSlot_replies (c : Nat) (sl : Slot) (s : State) : (setSlot c sl s).replies = s.replies := rfl

/-! `markRefused` writes the mark only (R56). -/

@[simp] theorem markRefused_keyStage (s : State) : (markRefused s).keyStage = s.keyStage := rfl
@[simp] theorem markRefused_din (s : State) : (markRefused s).din = s.din := rfl
@[simp] theorem markRefused_dout (s : State) : (markRefused s).dout = s.dout := rfl
@[simp] theorem markRefused_errcode (s : State) : (markRefused s).errcode = s.errcode := rfl
@[simp] theorem markRefused_errseen (s : State) : (markRefused s).errseen = s.errseen := rfl
@[simp] theorem markRefused_ctx (s : State) : (markRefused s).ctx = s.ctx := rfl
@[simp] theorem markRefused_refused (s : State) : (markRefused s).refused = true := rfl
@[simp] theorem markRefused_arrivals (s : State) : (markRefused s).arrivals = s.arrivals := rfl
@[simp] theorem markRefused_replies (s : State) : (markRefused s).replies = s.replies := rfl

/-! `reply` writes the replies only (R54). -/

@[simp] theorem reply_keyStage (a : Nat) (v : Word) (s : State) : (reply a v s).keyStage = s.keyStage := rfl
@[simp] theorem reply_din (a : Nat) (v : Word) (s : State) : (reply a v s).din = s.din := rfl
@[simp] theorem reply_dout (a : Nat) (v : Word) (s : State) : (reply a v s).dout = s.dout := rfl
@[simp] theorem reply_errcode (a : Nat) (v : Word) (s : State) : (reply a v s).errcode = s.errcode := rfl
@[simp] theorem reply_errseen (a : Nat) (v : Word) (s : State) : (reply a v s).errseen = s.errseen := rfl
@[simp] theorem reply_ctx (a : Nat) (v : Word) (s : State) : (reply a v s).ctx = s.ctx := rfl
@[simp] theorem reply_refused (a : Nat) (v : Word) (s : State) : (reply a v s).refused = s.refused := rfl
@[simp] theorem reply_arrivals (a : Nat) (v : Word) (s : State) : (reply a v s).arrivals = s.arrivals := rfl
@[simp] theorem reply_replies (a : Nat) (v : Word) (s : State) : (reply a v s).replies = ⟨a, v⟩ :: s.replies := rfl

/-! `arriveNext` writes the arrivals only. -/

@[simp] theorem arriveNext_keyStage (a : Arrival) (s : State) : (arriveNext a s).keyStage = s.keyStage := rfl
@[simp] theorem arriveNext_din (a : Arrival) (s : State) : (arriveNext a s).din = s.din := rfl
@[simp] theorem arriveNext_dout (a : Arrival) (s : State) : (arriveNext a s).dout = s.dout := rfl
@[simp] theorem arriveNext_errcode (a : Arrival) (s : State) : (arriveNext a s).errcode = s.errcode := rfl
@[simp] theorem arriveNext_errseen (a : Arrival) (s : State) : (arriveNext a s).errseen = s.errseen := rfl
@[simp] theorem arriveNext_ctx (a : Arrival) (s : State) : (arriveNext a s).ctx = s.ctx := rfl
@[simp] theorem arriveNext_refused (a : Arrival) (s : State) : (arriveNext a s).refused = s.refused := rfl
@[simp] theorem arriveNext_arrivals (a : Arrival) (s : State) : (arriveNext a s).arrivals = a :: s.arrivals := rfl
@[simp] theorem arriveNext_replies (a : Arrival) (s : State) : (arriveNext a s).replies = s.replies := rfl

/-! `resetWith` writes every register and slot, and neither the mark nor the host side (R230). -/

@[simp] theorem resetWith_keyStage (d : Draws) (s : State) : (resetWith d s).keyStage = d.keyStage := rfl
@[simp] theorem resetWith_din (d : Draws) (s : State) : (resetWith d s).din = d.din := rfl
@[simp] theorem resetWith_dout (d : Draws) (s : State) : (resetWith d s).dout = d.dout := rfl
@[simp] theorem resetWith_errcode (d : Draws) (s : State) : (resetWith d s).errcode = .ok := rfl
@[simp] theorem resetWith_errseen (d : Draws) (s : State) : (resetWith d s).errseen = false := rfl
@[simp] theorem resetWith_ctx (d : Draws) (s : State) : (resetWith d s).ctx = (List.range s.ctx.length).map (drawnSlot d) := rfl
@[simp] theorem resetWith_refused (d : Draws) (s : State) : (resetWith d s).refused = s.refused := rfl
@[simp] theorem resetWith_arrivals (d : Draws) (s : State) : (resetWith d s).arrivals = s.arrivals := rfl
@[simp] theorem resetWith_replies (d : Draws) (s : State) : (resetWith d s).replies = s.replies := rfl

/-! `writePlain` writes KEY1..KEY3 and DIN only (R55). -/

@[simp] theorem writePlain_dout (r : Reg) (v : Word) (s : State) : (writePlain r v s).dout = s.dout := by
  cases r <;> rfl
@[simp] theorem writePlain_errcode (r : Reg) (v : Word) (s : State) : (writePlain r v s).errcode = s.errcode := by
  cases r <;> rfl
@[simp] theorem writePlain_errseen (r : Reg) (v : Word) (s : State) : (writePlain r v s).errseen = s.errseen := by
  cases r <;> rfl
@[simp] theorem writePlain_ctx (r : Reg) (v : Word) (s : State) : (writePlain r v s).ctx = s.ctx := by
  cases r <;> rfl
@[simp] theorem writePlain_refused (r : Reg) (v : Word) (s : State) : (writePlain r v s).refused = s.refused := by
  cases r <;> rfl
@[simp] theorem writePlain_arrivals (r : Reg) (v : Word) (s : State) : (writePlain r v s).arrivals = s.arrivals := by
  cases r <;> rfl
@[simp] theorem writePlain_replies (r : Reg) (v : Word) (s : State) : (writePlain r v s).replies = s.replies := by
  cases r <;> rfl

/-! The number of slots, which no command changes. -/

theorem succeed_nCtx (s : State) : (succeed s).nCtx = s.nCtx := rfl
theorem raiseError_nCtx (code : ErrCode) (s : State) : (raiseError code s).nCtx = s.nCtx := rfl
theorem setSlot_nCtx (c : Nat) (sl : Slot) (s : State) : (setSlot c sl s).nCtx = s.nCtx := by
  simp [State.nCtx]
theorem resetWith_nCtx (d : Draws) (s : State) : (resetWith d s).nCtx = s.nCtx := by
  simp [State.nCtx]

/-- Taking the access just put first leaves the state as it was. -/
theorem arriveNext_taken (a : Arrival) (s : State) :
    { arriveNext a s with arrivals := s.arrivals } = s := rfl

end Sys2Proof.Machine
end

