-- ==== Sys2Proof/Laws/Ops.lean ====
section
/-! SUPPORT. What each shared operation can do, said once; later proofs cite these lemmas and do not unfold the operations. -/

namespace Sys2Proof.Machine

/-- Slot `c` exists exactly when `c` is less than `N_CTX` (R73). -/
theorem slotAt_eq_none {c : Nat} {s : State} : slotAt c s = none ↔ s.nCtx ≤ c := by
  simp [slotAt, State.nCtx]

/-- A slot outside `N_CTX`: BAD_CTX (R73). -/
theorem withSlot_outside {c : Nat} {s : State} {body : Slot → State} (h : s.ctx.length ≤ c) :
    withSlot c s body = .next (raiseError .badCtx s) := by
  rw [withSlot, slotAt_eq_none.mpr h]

/-- A slot that exists: the body's effect. -/
theorem withSlot_inside {c : Nat} {s : State} {body : Slot → State} {sl : Slot} (h : s.ctx[c]? = some sl) :
    withSlot c s body = .next (body sl) := by
  simp [withSlot, slotAt, h]

/-- All a load can do (R110, R163, R200). -/
theorem loadInto_cases {c : Nat} {s t : State} {new : Slot} (h : loadInto c s new = .next t) :
    (s.ctx.length ≤ c ∧ t = raiseError .badCtx s) ∨
      ∃ sl, s.ctx[c]? = some sl ∧
        ((sl.valid = true ∧ t = raiseError .slotInUse s) ∨
          (sl.valid = false ∧ t = succeed (setSlot c new s))) := by
  rcases hs : s.ctx[c]? with _ | sl
  · have hc : s.ctx.length ≤ c := by simpa using hs
    rw [loadInto, withSlot_outside hc] at h
    exact .inl ⟨hc, (Host.Outcome.next.inj h).symm⟩
  · rw [loadInto, withSlot_inside hs] at h
    refine .inr ⟨sl, rfl, ?_⟩
    cases hv : sl.valid <;> simp [hv] at h <;> simp [h]

/-- All a command that needs an instance can do (R181 to R183, R200). -/
theorem withInstance_cases {c : Nat} {s t : State} {body : Slot → State} (h : withInstance c s body = .next t) :
    (s.ctx.length ≤ c ∧ t = raiseError .badCtx s) ∨
      ∃ sl, s.ctx[c]? = some sl ∧
        ((sl.valid = false ∧ t = raiseError .noInstance s) ∨
          (sl.valid = true ∧ t = succeed (body sl))) := by
  rcases hs : s.ctx[c]? with _ | sl
  · have hc : s.ctx.length ≤ c := by simpa using hs
    rw [withInstance, withSlot_outside hc] at h
    exact .inl ⟨hc, (Host.Outcome.next.inj h).symm⟩
  · rw [withInstance, withSlot_inside hs] at h
    refine .inr ⟨sl, rfl, ?_⟩
    cases hv : sl.valid <;> simp [hv] at h <;> simp [h]

/-- A load into a slot without an instance. -/
theorem loadInto_free {c : Nat} {s : State} {new sl : Slot} (hs : s.ctx[c]? = some sl) (hv : sl.valid = false) :
    loadInto c s new = .next (succeed (setSlot c new s)) := by
  simp [loadInto, withSlot_inside hs, hv]

/-- A load aimed at a slot in use (R29). -/
theorem loadInto_inUse {c : Nat} {s : State} {new sl : Slot} (hs : s.ctx[c]? = some sl) (hv : sl.valid = true) :
    loadInto c s new = .next (raiseError .slotInUse s) := by
  simp [loadInto, withSlot_inside hs, hv]

/-- A command with the instance of a valid slot. -/
theorem withInstance_valid {c : Nat} {s : State} {body : Slot → State} {sl : Slot} (hs : s.ctx[c]? = some sl)
    (hv : sl.valid = true) : withInstance c s body = .next (succeed (body sl)) := by
  simp [withInstance, withSlot_inside hs, hv]

/-- A command on a slot without an instance. -/
theorem withInstance_invalid {c : Nat} {s : State} {body : Slot → State} {sl : Slot} (hs : s.ctx[c]? = some sl)
    (hv : sl.valid = false) : withInstance c s body = .next (raiseError .noInstance s) := by
  simp [withInstance, withSlot_inside hs, hv]

/-! What an instance computes (R110, R163, R181, R182). -/

/-- The schedules of a DES instance (R110).  Rewrite with it and the next one: asked whether two keys' schedules are equal by `rfl`, the
kernel evaluates both. -/
theorem desInstance_ks (k : Word) : (desInstance k).ks = #v[keySchedule k, zeroSchedule, zeroSchedule] := rfl
/-- Engine `j` of a Triple-DES instance: key `j` and its schedule (R164). -/
theorem tdesInstance_engine (keys : Vector Word 3) {j : Nat} (h : j < 3) :
    (tdesInstance keys).key[j] = keys[j] ∧ (tdesInstance keys).ks[j] = keySchedule keys[j] := by
  simp [tdesInstance]
theorem encryptWith_desInstance (k b : Word) : encryptWith (desInstance k) b = desEncrypt (keySchedule k) b := rfl
theorem decryptWith_desInstance (k b : Word) : decryptWith (desInstance k) b = desDecrypt (keySchedule k) b := rfl
theorem encryptWith_tdesInstance (k₁ k₂ k₃ b : Word) :
    encryptWith (tdesInstance #v[k₁, k₂, k₃]) b = tdesEncrypt (keySchedule k₁) (keySchedule k₂) (keySchedule k₃) b := by
  simp [encryptWith, tdesInstance]
theorem decryptWith_tdesInstance (k₁ k₂ k₃ b : Word) :
    decryptWith (tdesInstance #v[k₁, k₂, k₃]) b = tdesDecrypt (keySchedule k₁) (keySchedule k₂) (keySchedule k₃) b := by
  simp [decryptWith, tdesInstance]

/-- A read of register `r` names it by its offset and only by it (R52). -/
theorem regAt_regOffset (r : Reg) : regAt (regOffset r) = some r := by cases r <;> rfl

/-- An offset that names a register is aligned and is that register's offset (R52). -/
theorem regAt_eq_some {off : Nat} {r : Reg} (h : regAt off = some r) : off = regOffset r := by
  unfold regAt at h
  split at h <;> cases h <;> rfl

/-- An access reaches a register exactly when it is 8 bytes wide at the register's offset (R52, R56). -/
theorem target_eq_reg {off width : Nat} {r : Reg} : target off width = .reg r ↔ off = regOffset r ∧ width = 8 := by
  constructor
  · intro h
    unfold target at h
    split at h
    · cases h
    · split at h
      · cases h
      · rename_i hw
        split at h
        · rename_i r' hr
          cases h
          exact ⟨regAt_eq_some hr, by simpa using hw⟩
        · cases h
  · rintro ⟨rfl, rfl⟩
    cases r <;> rfl

/-- An access is past the window exactly when its offset is 64 or more (R50, R51). -/
theorem target_eq_outside {off width : Nat} : target off width = .outside ↔ 64 ≤ off := by
  unfold target
  by_cases h : 64 ≤ off
  · simp [h]
  · simp only [h, if_false, iff_false]
    split
    · simp
    · split <;> simp

/-- A slot drawn at reset holds no instance (R230). -/
@[simp] theorem drawnSlot_valid (d : Draws) (c : Nat) : (drawnSlot d c).valid = false := rfl

/-- Every slot after a reset is a drawn one. -/
theorem resetWith_getElem? {d : Draws} {s : State} {c : Nat} {sl : Slot} (h : (resetWith d s).ctx[c]? = some sl) :
    sl = drawnSlot d c := by
  simp only [resetWith_ctx, List.getElem?_map] at h
  rcases hr : (List.range s.ctx.length)[c]? with _ | k
  · simp [hr] at h
  · simp only [hr, Option.map_some, Option.some.injEq] at h
    rw [List.getElem?_eq_some_iff] at hr
    obtain ⟨hc, hk⟩ := hr
    simp at hk
    rw [← h, ← hk]

end Sys2Proof.Machine
end

