-- ==== Sys2Proof/Laws/Exec.lean ====
section
/-! SUPPORT. Everything a command can do (R70, R110, R163, R181 to R183, R200), said once. -/

namespace Sys2Proof.Machine

/-- Whether a command is a load. -/
def isLoad : Instr → Bool
  | .desLoad _ => true
  | .tdesLoad _ => true
  | _ => false

/-- The effect of a command that passes its checks, on the instance or free slot `sl` it names. -/
def commandEffect (i : Instr) (sl : Slot) (s : State) : State :=
  match i with
  | .desLoad c => setSlot c (desInstance s.keyStage[0]) s
  | .tdesLoad c => setSlot c (tdesInstance s.keyStage) s
  | .enc _ => { s with dout := encryptWith sl s.din }
  | .dec _ => { s with dout := decryptWith sl s.din }
  | .destroy c => setSlot c (clearedSlot sl) s

/-- If a command answers a next state, then its slot does not exist and it fails with BAD_CTX, or its slot is in the wrong state
and it fails with SLOT_IN_USE (a load) or NO_INSTANCE (the others), or its slot is in the right state and it succeeds with its
effect. -/
theorem exec_cases {i : Instr} {s t : State} (h : exec i s = .next t) :
    (s.ctx.length ≤ i.slot ∧ t = raiseError .badCtx s) ∨
      ∃ sl, s.ctx[i.slot]? = some sl ∧
        ((sl.valid = isLoad i ∧ t = raiseError (if isLoad i then .slotInUse else .noInstance) s) ∨
          (sl.valid = !isLoad i ∧ t = succeed (commandEffect i sl s))) := by
  cases i with
  | desLoad c => exact loadInto_cases h
  | tdesLoad c => exact loadInto_cases h
  | enc c => exact withInstance_cases h
  | dec c => exact withInstance_cases h
  | destroy c => exact withInstance_cases h

/-- The slots a successful command leaves: all but its own as they were, and as many as before (R27). -/
theorem commandEffect_ctx (i : Instr) (sl : Slot) (s : State) :
    (commandEffect i sl s).ctx.length = s.ctx.length ∧
      ∀ c, c ≠ i.slot → (commandEffect i sl s).ctx[c]? = s.ctx[c]? := by
  cases i <;> simp [commandEffect, Instr.slot] <;> intro c hc <;> simp [Ne.symm hc]

/-- The registers no command writes (R26, R31), and the host side. -/
theorem commandEffect_frame (i : Instr) (sl : Slot) (s : State) :
    commandEffect i sl s =
      { s with ctx := (commandEffect i sl s).ctx, dout := (commandEffect i sl s).dout } := by
  cases i <;> rfl

end Sys2Proof.Machine
end

