-- ==== Sys2Proof/Laws/PerInstr.lean ====
section
/-! SUPPORT. What the encoder puts into each field of the command word (R71), one lemma per command. -/

namespace Sys2Proof.Laws

/-- The four fields of the encoded word of a well-formed command: its OP value, zeros in both reserved fields, and its slot index
in CTX, unsigned and not scaled (R71 to R74). -/
def EncodedFields.Statement (i : Instr) : Prop :=
  i.wellFormed = true →
    opField (encode i) = opcodeOf i ∧ rsv0Field (encode i) = 0 ∧ (ctxField (encode i)).toNat = i.slot ∧
      rsv1Field (encode i) = 0

/-- The fields of a word put together from its OP value and slot index. -/
theorem fields_of_word (op : BitVec 4) (c : Nat) (hc : c < 256) :
    opField (0#48 ++ BitVec.ofNat 8 c ++ 0#4 ++ op) = op ∧ rsv0Field (0#48 ++ BitVec.ofNat 8 c ++ 0#4 ++ op) = 0 ∧
      (ctxField (0#48 ++ BitVec.ofNat 8 c ++ 0#4 ++ op)).toNat = c ∧
      rsv1Field (0#48 ++ BitVec.ofNat 8 c ++ 0#4 ++ op) = 0 := by
  have h1 : ctxField (0#48 ++ BitVec.ofNat 8 c ++ 0#4 ++ op) = BitVec.ofNat 8 c := by
    apply BitVec.eq_of_getLsbD_eq
    intro i hi
    simp [ctxField, hi]
    grind
  refine ⟨?_, ?_, ?_, ?_⟩
  · apply BitVec.eq_of_getLsbD_eq
    intro i hi
    simp [opField, hi]
    grind
  · apply BitVec.eq_of_getLsbD_eq
    intro i hi
    simp [rsv0Field, hi]
    grind
  · rw [h1, BitVec.toNat_ofNat, Nat.mod_eq_of_lt hc]
  · apply BitVec.eq_of_getLsbD_eq
    intro i hi
    simp [rsv1Field, hi]
    grind

theorem EncodedFields.desLoad (c : Nat) : EncodedFields.Statement (.desLoad c) := fun h =>
  fields_of_word 1 c (of_decide_eq_true h)

theorem EncodedFields.tdesLoad (c : Nat) : EncodedFields.Statement (.tdesLoad c) := fun h =>
  fields_of_word 2 c (of_decide_eq_true h)

theorem EncodedFields.enc (c : Nat) : EncodedFields.Statement (.enc c) := fun h =>
  fields_of_word 3 c (of_decide_eq_true h)

theorem EncodedFields.dec (c : Nat) : EncodedFields.Statement (.dec c) := fun h =>
  fields_of_word 4 c (of_decide_eq_true h)

theorem EncodedFields.destroy (c : Nat) : EncodedFields.Statement (.destroy c) := fun h =>
  fields_of_word 5 c (of_decide_eq_true h)

end Sys2Proof.Laws
end

