-- ==== Sys2Proof/Laws/Step.lean ====
section
/-! SUPPORT. Everything a step can do, said once: one case for each kind of host access. -/

namespace Sys2Proof.Machine

/-- `Execute(w)` of a word that is a command (R70). -/
theorem execute_command {w : Word} {i : Instr} (h : decode w = .ok i) (s : State) : execute w s = exec i s := by
  simp [execute, h]

/-- `Execute(w)` of a word that is none (R74, R75). -/
theorem execute_illegal {w : Word} {e : DecodeError} (h : decode w = .error e) (s : State) :
    execute w s = .next (raiseError .illegalCmd s) := by
  simp [execute, h]

/-- What one access or reset can do when it answers a next state, on the state `s` it finds. -/
inductive Effect : Nat → Event → State → State → Prop
  | resets (a : Nat) (d : Draws) (s : State) : Effect a (.reset d) s (resetWith d s)
  | reads (a : Nat) (r : Reg) (s : State) : Effect a (.read (regOffset r) 8) s (reply a (readReg r s) s)
  | writes (a : Nat) (r : Reg) (v : Word) (s : State) (h : r ≠ .cmd) :
      Effect a (.write (regOffset r) 8 v) s (writePlain r v s)
  | illegal (a : Nat) (w : Word) (s : State) (e : DecodeError) (h : decode w = .error e) :
      Effect a (.write 0x00 8 w) s (raiseError .illegalCmd s)
  | command (a : Nat) (w : Word) (s t : State) (i : Instr) (hd : decode w = .ok i) (he : exec i s = .next t) :
      Effect a (.write 0x00 8 w) s t
  | undefinedRead (a off width : Nat) (s : State) (h : target off width = .undefinedAccess) :
      Effect a (.read off width) s (markRefused s)
  | undefinedWrite (a off width : Nat) (v : Word) (s : State) (h : target off width = .undefinedAccess) :
      Effect a (.write off width v) s (markRefused s)

/-- If an access answers a next state, then that state is one of its effects. -/
theorem perform_cases {a : Nat} {e : Event} {s t : State} (h : perform a e s = .next t) : Effect a e s t := by
  cases e with
  | reset d =>
    cases h
    exact .resets a d s
  | read off width =>
    simp only [perform] at h
    split at h
    · cases h
    · cases h
      exact .undefinedRead a off width s ‹_›
    · rename_i r hr
      obtain ⟨rfl, rfl⟩ := target_eq_reg.mp hr
      cases h
      exact .reads a r s
  | write off width v =>
    simp only [perform] at h
    split at h
    · cases h
    · cases h
      exact .undefinedWrite a off width v s ‹_›
    · rename_i r hr
      obtain ⟨rfl, rfl⟩ := target_eq_reg.mp hr
      by_cases hc : r = .cmd
      · subst hc
        simp only [writeReg] at h
        rcases hd : decode v with e | i
        · rw [execute_illegal hd] at h
          cases h
          exact .illegal a v s e hd
        · rw [execute_command hd] at h
          exact .command a v s t i hd h
      · cases r <;> first | exact absurd rfl hc | (cases h; exact .writes a _ v s hc)

/-- If a step answers a next state, then no access arrived and the state is unchanged (R231), or the first arrival was taken and
its effect made on the rest. -/
theorem step_cases {s t : State} (h : step s = .next t) :
    (s.arrivals = [] ∧ t = s) ∨
      ∃ a rest, s.arrivals = a :: rest ∧ Effect a.agent a.event { s with arrivals := rest } t := by
  unfold step at h
  split at h
  · cases h
    exact .inl ⟨‹_›, rfl⟩
  · exact .inr ⟨_, _, ‹_›, perform_cases h⟩

/-- A run of `k + 1` steps of any machine that begins with a step to `t` is the run of `k` steps from `t`. -/
theorem run_succ_of_step (M : Host.Core) {s t : M.State} (h : M.step s = .next t) (k : Nat) :
    M.run (k + 1) s = M.run k t := by
  change (match M.step s with
    | .next u => M.run k u
    | .fault r => .fault r
    | .refused r => .refused r) = _
  rw [h]

/-- A run of the DES3 core that begins with a step to `t`. -/
theorem run_of_step {s t : State} (h : step s = .next t) (k : Nat) :
    Host.Core.run Sys2Proof.core (k + 1) s = Host.Core.run Sys2Proof.core k t :=
  run_succ_of_step Sys2Proof.core h k

/-- A run of no step stays. -/
theorem run_zero (s : State) : Host.Core.run Sys2Proof.core 0 s = .next s := rfl

end Sys2Proof.Machine
end

