-- ==== Sys2Proof/Laws/Tables.lean ====
section
/-! SUPPORT. The sizes and ranges of the tables, for every use of the permutation law. -/

namespace Sys2Proof.Machine

theorem pc1_length : pc1.length = 56 := rfl
theorem pc2_length : pc2.length = 48 := rfl
theorem ip_length : ip.length = 64 := rfl
theorem fp_length : fp.length = 64 := rfl
theorem expansion_length : expansion.length = 48 := rfl
theorem pTable_length : pTable.length = 32 := rfl
theorem shift_length : shift.length = 16 := rfl
theorem sboxes_length : sboxes.length = 8 := rfl

/-! Every entry of a permutation table names a bit of its input, counted from 1 (R11). -/

theorem pc1_range : ∀ t ∈ pc1, 1 ≤ t ∧ t ≤ 64 := by decide
theorem pc2_range : ∀ t ∈ pc2, 1 ≤ t ∧ t ≤ 56 := by decide
theorem ip_range : ∀ t ∈ ip, 1 ≤ t ∧ t ≤ 64 := by decide
theorem fp_range : ∀ t ∈ fp, 1 ≤ t ∧ t ≤ 64 := by decide
theorem expansion_range : ∀ t ∈ expansion, 1 ≤ t ∧ t ≤ 32 := by decide
theorem pTable_range : ∀ t ∈ pTable, 1 ≤ t ∧ t ≤ 32 := by decide

/-- No round rotates by a whole turn (R103). -/
theorem shift_range : ∀ a ∈ shift, a < 28 := by decide

end Sys2Proof.Machine
end

