-- ==== Sys2Proof/Tests/Slice0.lean ====
section
/-! SUPPORT. The model's own tests: the WellFormed smoke test, decoding against words written out from the spec, vectors of
95_test_vectors.md (V<n>), and a witness for the hypotheses of each statement.  Expected results are the spec's. -/

namespace Sys2Proof.Tests

open Sys2Proof Sys2Proof.Machine

/-! ## Helpers -/

/-- The section 8 key, plaintext and ciphertext of the document (95_test_vectors.md). -/
def kK : Word := 0x133457799BBCDFF1
def pK : Word := 0x0123456789ABCDEF
def cK : Word := 0x85E813540F0AB405

/-- The keys of V20. -/
def kA : Word := 0x0123456789ABCDEF
def kB : Word := 0x23456789ABCDEF01
def kC : Word := 0x456789ABCDEF0123

/-- A slot without an instance. -/
def noSlot : Slot := ⟨false, .des, #v[0, 0, 0], #v[zeroSchedule, zeroSchedule, zeroSchedule]⟩

/-- N_CTX = 4, KEY1..KEY3 of V20, slot 0 DES kK, slot 1 TDES (kA, kB, kC), slots 2 and 3 without an instance, and a DOUT that makes
"unchanged" visible (95_test_vectors.md section 5). -/
def st : State where
  keyStage := #v[kA, kB, kC]
  din := pK
  dout := 0x1111111111111111
  errcode := .ok
  errseen := false
  ctx := [desInstance kK, tdesInstance #v[kA, kB, kC], noSlot, noSlot]
  refused := false
  arrivals := []
  replies := []

/-- The state after one host access by agent 0, where the step answers one. -/
def after (e : Event) (s : State) : Option State :=
  match step (arriveNext ⟨0, e⟩ s) with
  | .next t => some t
  | _ => none

/-- STATUS after a CMD write of `w`. -/
def statusAfter (w : Word) (s : State) : Option Word := (after (.write 0x00 8 w) s).map statusWord

/-- The value a read at `off` returned. -/
def readAt (off : Nat) (s : State) : Option Word := (after (.read off 8) s).bind fun t => t.replies.head?.map (·.value)

/-! ## WellFormed: an index of 256 cannot be encoded (R78) -/

theorem test_illFormed_desLoad : (Instr.desLoad 256).wellFormed = false := by decide
theorem test_illFormed_tdesLoad : (Instr.tdesLoad 256).wellFormed = false := by decide
theorem test_illFormed_enc : (Instr.enc 256).wellFormed = false := by decide
theorem test_illFormed_dec : (Instr.dec 256).wellFormed = false := by decide
theorem test_illFormed_destroy : (Instr.destroy 256).wellFormed = false := by decide
theorem test_assembler_refuses : assemble (.enc 256) = none ∧ assemble (.enc 2) = some 0x0000000000000203 := by decide

/-! ## Decode: words written out field by field, RSV1 ‖ CTX ‖ RSV0 ‖ OP (R71, R72) -/

theorem test_decode_desLoad : decode (0#48 ++ 0b00000101#8 ++ 0b0000#4 ++ 0b0001#4) = .ok (.desLoad 5) := by decide
theorem test_decode_tdesLoad : decode (0#48 ++ 0b10000000#8 ++ 0b0000#4 ++ 0b0010#4) = .ok (.tdesLoad 128) := by decide
theorem test_decode_enc : decode (0#48 ++ 0b11111111#8 ++ 0b0000#4 ++ 0b0011#4) = .ok (.enc 255) := by decide
theorem test_decode_dec : decode (0#48 ++ 0b00000001#8 ++ 0b0000#4 ++ 0b0100#4) = .ok (.dec 1) := by decide
theorem test_decode_destroy : decode (0#48 ++ 0b00000000#8 ++ 0b0000#4 ++ 0b0101#4) = .ok (.destroy 0) := by decide
theorem test_decode_rejects : decode 0x0 = .error (.illegalOp 0) ∧ decode 0x406 = .error (.illegalOp 6) ∧
    decode 0xF = .error (.illegalOp 0xF) ∧ decode 0x13 = .error .reservedBits ∧ decode 0x10003 = .error .reservedBits ∧
    decode 0x8000000000000003 = .error .reservedBits ∧ decode 0xFF0006 = .error .reservedBits := by decide
theorem test_decodeTableWord : decodeTableWord 64 0x0203 = some (.enc 2) ∧ decodeTableWord 16 0x0205 = some (.destroy 2) ∧
    decodeTableWord 64 0x10003 = none := by decide

/-! ## The cipher (V1 to V26) -/

/-- V2: K1 and K16. -/
theorem test_keySchedule : (keySchedule kK)[0] = 0x1B02EFFC7072 ∧ (keySchedule kK)[15] = 0xCB3D8B0E17F5 := by decide +kernel
/-- V3. -/
theorem test_roundF : roundF 0xF0AAF0AA 0x1B02EFFC7072 = 0x234AA9BB := by decide +kernel
/-- V14: row 0, column 15 of S1 for 0x1E, and entry 32 for 0x20. -/
theorem test_sbox : sboxLookup sbox1 0x1E = 7 ∧ sboxLookup sbox1 0x20 = 4 ∧ sboxLookup sbox8 0x01 = 1 := by decide
/-- V13: one bit through each permutation. -/
theorem test_permutations :
    permute 56 pc1 (0x8000000000000000 : Word) = 0x01000000000000 ∧
      permute 48 pc2 (0x80000000000000 : BitVec 56) = 0x080000000000 ∧
      permute 64 ip (0x0000000000000001 : Word) = 0x0000008000000000 ∧
      permute 64 fp (0x8000000000000000 : Word) = 0x0000000000000040 ∧
      permute 48 expansion (0x80000001 : Half) = 0xC00000000003 ∧
      permute 32 pTable (0x80000000 : Half) = 0x00800000 := by decide +kernel
/-- V6, a published vector. -/
theorem test_desEncrypt : desEncrypt (keySchedule 0x0E329232EA6D0D73) 0x8787878787878787 = 0x0000000000000000 := by
  decide +kernel
/-! ## Commands, one step each (V30 to V44) -/

/-- V30: `enc 0` on a DES slot. -/
theorem test_enc_des : (after (.write 0x00 8 0x0003) st).map (·.dout) = some cK := by decide +kernel
/-- V20, V44: `enc 1` on a TDES slot. -/
theorem test_enc_tdes : (after (.write 0x00 8 0x0103) { st with din := 0x5468652071756663 }).map (·.dout) =
    some 0xA826FD8CE53B855F := by decide +kernel
/-- V5: `dec 0`. -/
theorem test_dec_des : (after (.write 0x00 8 0x0004) { st with din := cK }).map (·.dout) = some pK := by decide +kernel
/-- V21.3: `dec 1`. -/
theorem test_dec_tdes : (after (.write 0x00 8 0x0104) { st with din := 0xA826FD8CE53B855F }).map (·.dout) =
    some 0x5468652071756663 := by decide +kernel
/-- V32: `des.load 2` makes slot 2 a DES slot with KEY1. -/
theorem test_desLoad : ((after (.write 0x00 8 0x0201) st).bind (slotAt 2)).map (fun sl => (sl.valid, sl.kind, sl.key)) =
    some (true, .des, #v[kA, 0, 0]) := by decide
/-- V35: `des.load 0` on a slot in use. -/
theorem test_desLoad_inUse : statusAfter 0x0001 st = some 0x104 := by decide
/-- V33: `tdes.load 2` makes slot 2 a TDES slot with KEY1..KEY3. -/
theorem test_tdesLoad : ((after (.write 0x00 8 0x0202) st).bind (slotAt 2)).map (fun sl => (sl.valid, sl.kind, sl.key)) =
    some (true, .tdes, #v[kA, kB, kC]) := by decide
/-- V36. -/
theorem test_tdesLoad_inUse : statusAfter 0x0002 st = some 0x104 := by decide
/-- V34: `destroy 0` leaves no instance and DOUT as it was. -/
theorem test_destroy : ((after (.write 0x00 8 0x0005) st).bind (slotAt 0)).map (fun sl => (sl.valid, sl.key)) =
      some (false, #v[0, 0, 0]) ∧
    (after (.write 0x00 8 0x0005) st).map (·.dout) = some 0x1111111111111111 := by decide
/-- V37, V38: NO_INSTANCE, and BAD_CTX at c = N_CTX before the slot check. -/
theorem test_noInstance_badCtx : statusAfter 0x0203 st = some 0x103 ∧ statusAfter 0x0304 st = some 0x103 ∧
    statusAfter 0x0205 st = some 0x103 ∧ statusAfter 0x0403 st = some 0x102 ∧ statusAfter 0xFF01 st = some 0x102 ∧
    statusAfter 0x0405 st = some 0x102 := by decide
/-- V39: illegal words, and their priority over the index. -/
theorem test_illegalCmd : statusAfter 0x0 st = some 0x101 ∧ statusAfter 0xF st = some 0x101 ∧
    statusAfter 0x13 st = some 0x101 ∧ statusAfter 0x8000000000000003 st = some 0x101 ∧
    statusAfter 0xFF0006 st = some 0x101 ∧ statusAfter 0x406 st = some 0x101 := by decide
/-- V40: ERRSEEN stays after a success. -/
theorem test_errseen_sticky : statusAfter 0x0003 { st with errcode := .noInstance, errseen := true } = some 0x100 := by decide

/-! ## Register accesses and reset (V41 to V43) -/

theorem test_reads : readAt 0x00 st = some 0 ∧ readAt 0x10 st = some 0 ∧ readAt 0x28 st = some pK ∧
    readAt 0x30 st = some 0x1111111111111111 ∧ readAt 0x38 st = some 4 := by decide
theorem test_writes : (after (.write 0x18 8 7) st).map (·.keyStage) = some #v[kA, 7, kC] ∧
    (after (.write 0x30 8 0) st).map (·.dout) = some 0x1111111111111111 := by decide
/-- V42. -/
theorem test_refused : (after (.write 0x28 4 0) st).map (fun t => (t.refused, t.din)) = some (true, pK) ∧
    (after (.read 0x2C 8) st).map (fun t => (t.refused, t.replies)) = some (true, []) ∧
    (after (.read 0x10 16) st).map (·.refused) = some true := by decide
/-- The draws of the reset tests. -/
def draws : Draws := ⟨#v[1, 2, 3], 4, 5, [desInstance kK]⟩
/-- V43. -/
theorem test_reset : (after (.reset draws) { st with errcode := .badCtx, errseen := true }).map statusWord = some 0 ∧
    (after (.reset draws) st).map (fun t => (t.ctx.map (·.valid), t.keyStage, t.din, t.dout)) =
      some ([false, false, false, false], #v[1, 2, 3], 4, 5) := by decide
/-- A command placed by `withFetchWord` is the first to run after reset: `enc 0` then reports NO_INSTANCE (V43, step 5). -/
theorem test_first_after_reset :
    (match step (State.reset.withFetchWord 64 0x0003) with | .next t => some (statusWord t) | _ => none) = some 0x103 := by
  decide
def hostA1 : Arrival := ⟨0, .write 0x28 8 pK⟩
def hostA2 : Arrival := ⟨0, .write 0x00 8 0x0003⟩
def hostB1 : Arrival := ⟨1, .write 0x28 8 0⟩
/-- P5: host B's write of DIN between A1 and A2 changes the block A's `enc 0` takes, and not when it comes first. -/
theorem test_interleaving_B_between :
    (match step { st with arrivals := [hostB1, hostA2], din := pK } with | .next t => some (t.din, t.arrivals) | _ => none) =
      some (0, [hostA2]) := by decide
theorem test_interleaving_B_first :
    (match step { st with arrivals := [hostA1, hostA2], din := 0 } with | .next t => some (t.din, t.arrivals) | _ => none) =
      some (pK, [hostA2]) := by decide

/-! ## Witnesses: states and operands that meet the hypotheses of the statements

Named after the statement; where a statement has several clauses, one conjunct for each, at a boundary of its range. -/

theorem witness_DecodeOfEncode : (Instr.enc 255).wellFormed = true ∧ (Instr.desLoad 0).wellFormed = true := by decide
theorem witness_EncodeOfDecoded_and_StepRuns : decode 0xFF03 = .ok (.enc 255) ∧ decode 0x0001 = .ok (.desLoad 0) := by decide
theorem witness_IllegalCommandWord :
    ((0x0000000000000013 : Word) &&& 0xFFFFFFFFFFFF00F0 ≠ 0) ∧ ((0x0000000000010003 : Word) &&& 0xFFFFFFFFFFFF00F0 ≠ 0) ∧
      ((0x0000000000000400 : Word).toNat % 16 = 0) ∧ 6 ≤ (0x0000000000000406 : Word).toNat % 16 ∧
      6 ≤ (0x000000000000040F : Word).toNat % 16 := by decide
/-- The clauses of the five command statements: a slot without an instance, a DES slot, a TDES slot, an index equal to N_CTX. -/
theorem witness_command_clauses :
    (st.ctx[3]? = some noSlot ∧ noSlot.valid = false) ∧
      (st.ctx[0]? = some (desInstance kK) ∧ (desInstance kK).valid = true ∧ (desInstance kK).kind = .des) ∧
      (st.ctx[1]? = some (tdesInstance #v[kA, kB, kC]) ∧ (tdesInstance #v[kA, kB, kC]).valid = true ∧
        (tdesInstance #v[kA, kB, kC]).kind = .tdes) ∧
      st.ctx.length ≤ 4 ∧ 255 < 256 :=
  ⟨⟨rfl, rfl⟩, ⟨rfl, rfl, rfl⟩, ⟨rfl, rfl, rfl⟩, by decide, by decide⟩
theorem witness_FailingCommand : (∃ t, execute 0x0205 st = .next t ∧ t.errcode ≠ .ok) ∧
    ∃ t, execute 0x0000 st = .next t ∧ t.errcode ≠ .ok := ⟨⟨_, rfl, by decide⟩, ⟨_, rfl, by decide⟩⟩
theorem witness_SucceedingCommand : ∃ t, execute 0x0201 st = .next t ∧ t.errcode = .ok := ⟨_, rfl, rfl⟩
theorem witness_CommandTouchesOnlyItsSlot : (∃ t, exec (.desLoad 2) st = .next t) ∧ 1 ≠ (Instr.desLoad 2).slot :=
  ⟨⟨_, rfl⟩, by decide⟩
/-- ERRSEEN set before, and ERRSEEN set by the step. -/
theorem witness_ErrseenIsSticky :
    (∃ t, step { st with errseen := true, arrivals := [⟨0, .read 0x08 8⟩] } = .next t ∧ t.errseen = true) ∧
      ∃ t, step { st with arrivals := [⟨0, .write 0x00 8 0⟩] } = .next t ∧ t.errseen = true ∧ t.errcode ≠ .ok :=
  ⟨⟨_, rfl, rfl⟩, ⟨_, rfl, rfl, by decide⟩⟩
/-- `destroy 1` is not `destroy 0`: slot 0 is to stay. -/
theorem witness_ValidSlotChanges :
    (∃ t, step { st with arrivals := [⟨0, .write 0x00 8 0x0105⟩] } = .next t) ∧ st.ctx[0]? = some (desInstance kK) ∧
      (desInstance kK).valid = true ∧ decode 0x0105 ≠ .ok (.destroy 0) := ⟨⟨_, rfl⟩, rfl, rfl, by decide⟩
theorem witness_DoutChanges_reset : ∃ t, step { st with arrivals := [⟨0, .reset draws⟩] } = .next t ∧ t.dout ≠ st.dout :=
  ⟨_, rfl, by decide⟩
theorem witness_DoutChanges_enc :
    ((after (.write 0x00 8 0x0003) st).map (fun t => decide (t.dout ≠ st.dout))) = some true := by decide +kernel
theorem witness_StagingChanges :
    (∃ t, step { st with arrivals := [⟨0, .write 0x20 8 9⟩] } = .next t ∧ t.keyStage ≠ st.keyStage) ∧
      (∃ t, step { st with arrivals := [⟨0, .write 0x28 8 9⟩] } = .next t ∧ t.din ≠ st.din) ∧
      ∃ t, step { st with arrivals := [⟨0, .reset draws⟩] } = .next t ∧ t.keyStage ≠ st.keyStage ∧ t.din ≠ st.din :=
  ⟨⟨_, rfl, by decide⟩, ⟨_, rfl, by decide⟩, ⟨_, rfl, by decide, by decide⟩⟩
/-- Two states, and two slots of them, that agree only on the instance and DIN. -/
theorem witness_BlockResult :
    st.ctx[0]? = some (desInstance kK) ∧
      ({ st with ctx := noSlot :: st.ctx, dout := 0, errseen := true } : State).ctx[1]? = some (desInstance kK) ∧
      (desInstance kK).valid = true := ⟨rfl, rfl, rfl⟩
/-- Of `DecUndoesEncOnTheSameSlot`, `RekeyingTakesDestroyThenLoad` and `ReadAfterBlockCommandReturnsItsResult`. -/
theorem witness_valid_slots :
    (st.ctx[0]? = some (desInstance kK) ∧ (desInstance kK).valid = true) ∧
      (st.ctx[1]? = some (tdesInstance #v[kA, kB, kC]) ∧ (tdesInstance #v[kA, kB, kC]).valid = true) ∧ 0 < 256 :=
  ⟨⟨rfl, rfl⟩, ⟨rfl, rfl⟩, by decide⟩
theorem witness_RegisterReads :
    ((0x38, 4) : Nat × Word) ∈
      ([(0x00, 0), (0x08, BitVec.ofNat 64 ((if st.errseen then 256 else 0) + (errcodeNumber st.errcode).toNat)),
        (0x10, 0), (0x18, 0), (0x20, 0), (0x28, st.din), (0x30, st.dout),
        (0x38, BitVec.ofNat 64 st.ctx.length)] : List (Nat × Word)) := by decide
/-- A misaligned access at the last offset of the window, a narrow and a wide aligned one. -/
theorem witness_UndefinedAccess :
    (63 < 64 ∧ (8 ≠ 8 ∨ 63 % 8 ≠ 0)) ∧ (0 < 64 ∧ (4 ≠ 8 ∨ 0 % 8 ≠ 0)) ∧ (0x38 < 64 ∧ (16 ≠ 8 ∨ 0x38 % 8 ≠ 0)) := by decide
theorem witness_RefusedMark :
    (∃ t, step { st with arrivals := [⟨0, .read 0x3F 8⟩] } = .next t ∧ t.refused = true) ∧
      ∃ t, step { st with arrivals := [⟨0, .read 0x38 8⟩] } = .next t ∧ t.refused = false := ⟨⟨_, rfl, rfl⟩, ⟨_, rfl, rfl⟩⟩
theorem witness_TrustedRun :
    ∃ t, Reaches { st with arrivals := [⟨0, .read 0x38 8⟩] } t ∧ Trusted t :=
  ⟨_, .tail (.refl _) rfl, rfl⟩
theorem witness_StepStops : step { st with arrivals := [⟨0, .read 64 8⟩] } = .fault .outsideWindow ∧ 64 ≤ 64 := ⟨rfl, by decide⟩
theorem witness_BlockWaits : st.arrivals = [] := rfl
theorem witness_ReadsDoNotReveal :
    let s₁ : State := { st with arrivals := [⟨0, .read 0x10 8⟩] }
    let s₂ : State := { st with arrivals := [⟨0, .read 0x10 8⟩], keyStage := #v[0, 0, 0], ctx := [noSlot, noSlot, noSlot, noSlot] }
    s₁.ctx.length = s₂.ctx.length ∧ s₁.replies = s₂.replies ∧ (∃ t, step s₁ = .next t) ∧ ∃ t, step s₂ = .next t :=
  ⟨rfl, rfl, ⟨_, rfl⟩, ⟨_, rfl⟩⟩
theorem witness_AnyAgent : ∃ t, step { st with arrivals := [⟨3, .read 0x30 8⟩] } = .next t := ⟨_, rfl⟩
theorem witness_Pseudo : expandPseudo (.encrypt 255 pK) ≠ none := by decide
theorem witness_StepKeepsTheInvariant :
    StateInv { st with arrivals := [⟨0, .write 0x00 8 0x0005⟩] } ∧
      ∃ t, step { st with arrivals := [⟨0, .write 0x00 8 0x0005⟩] } = .next t := by
  refine ⟨⟨by decide, by decide, ?_, by simp [st]⟩, ⟨_, rfl⟩⟩
  intro sl h
  simp only [st, List.mem_cons, List.not_mem_nil, or_false] at h
  rcases h with rfl | rfl | rfl | rfl
  · exact fun _ => ⟨rfl, rfl, rfl, rfl, rfl⟩
  · exact fun _ => by simp [tdesInstance, engineScheduled]
  · exact fun h => nomatch h
  · exact fun h => nomatch h
/-- Of `StoredSchedulesActAsRecomputedOnes`, with a DES and a TDES slot. -/
theorem witness_StoredSchedules :
    StateInv st ∧ st.ctx[0]? = some (desInstance kK) ∧ (desInstance kK).kind = .des ∧
      st.ctx[1]? = some (tdesInstance #v[kA, kB, kC]) ∧ (tdesInstance #v[kA, kB, kC]).kind = .tdes := by
  obtain ⟨h1, h2, h3, _⟩ := witness_StepKeepsTheInvariant.1
  exact ⟨⟨h1, h2, h3, by simp [st]⟩, rfl, rfl, rfl, rfl⟩
/-- Two states that differ in a slot without an instance and in nothing else. -/
theorem witness_DeadSlots :
    SameButDeadSlots st { st with ctx := st.ctx.set 3 { noSlot with kind := .tdes, key := #v[1, 2, 3] } } ∧
      ∃ t, step st = .next t := by
  refine ⟨⟨rfl, rfl, ?_⟩, ⟨_, rfl⟩⟩
  intro c sl sl' h h'
  by_cases hc : c = 3
  · subst hc
    cases h
    cases h'
    exact .inr ⟨rfl, rfl⟩
  · rw [List.getElem?_set_ne (Ne.symm hc), h] at h'
    exact .inl (Option.some.inj h').symm
/-- Of the two host sequences of R233, with c = 3, the one with `enc`, the other with `dec`. -/
theorem witness_DesSequence :
    3 < 256 ∧ st.ctx[3]? = some noSlot ∧ noSlot.valid = false ∧
      (Instr.enc 3, desEncrypt (keySchedule kK) pK) ∈
        [(Instr.enc 3, desEncrypt (keySchedule kK) pK), (.dec 3, desDecrypt (keySchedule kK) pK)] ∧
      ({ st with arrivals := arrivalsOf 0 [.write 0x10 8 kK, .write 0x00 8 (encode (.desLoad 3)), .write 0x28 8 pK,
          .write 0x00 8 (encode (.enc 3)), .read 0x08 8, .read 0x30 8] ++ [] } : State).arrivals =
        arrivalsOf 0 [.write 0x10 8 kK, .write 0x00 8 (encode (.desLoad 3)), .write 0x28 8 pK,
          .write 0x00 8 (encode (.enc 3)), .read 0x08 8, .read 0x30 8] ++ [] :=
  ⟨by decide, rfl, rfl, List.mem_cons_self, rfl⟩
theorem witness_TdesSequence :
    3 < 256 ∧ st.ctx[3]? = some noSlot ∧ noSlot.valid = false ∧
      (Instr.dec 3, tdesDecrypt (keySchedule kA) (keySchedule kB) (keySchedule kC) pK) ∈
        [(Instr.enc 3, tdesEncrypt (keySchedule kA) (keySchedule kB) (keySchedule kC) pK),
          (.dec 3, tdesDecrypt (keySchedule kA) (keySchedule kB) (keySchedule kC) pK)] ∧
      ({ st with arrivals := arrivalsOf 0 [.write 0x10 8 kA, .write 0x18 8 kB, .write 0x20 8 kC,
          .write 0x00 8 (encode (.tdesLoad 3)), .write 0x28 8 pK, .write 0x00 8 (encode (.dec 3)), .read 0x08 8,
          .read 0x30 8] ++ [] } : State).arrivals =
        arrivalsOf 0 [.write 0x10 8 kA, .write 0x18 8 kB, .write 0x20 8 kC, .write 0x00 8 (encode (.tdesLoad 3)),
          .write 0x28 8 pK, .write 0x00 8 (encode (.dec 3)), .read 0x08 8, .read 0x30 8] ++ [] :=
  ⟨by decide, rfl, rfl, List.mem_cons_of_mem _ List.mem_cons_self, rfl⟩
theorem witness_Permute : 0 < ip.length ∧ 63 < ip.length := by decide
theorem witness_Parity : (0x0101010101010101 : Word) &&& 0xFEFEFEFEFEFEFEFE = 0 ∧
    (st.ctx[3]? = some noSlot ∧ noSlot.valid = false) ∧ (Instr.tdesLoad 3 = .desLoad 3 ∨ Instr.tdesLoad 3 = .tdesLoad 3) ∧
      ∀ p ∈ [(0x0101010101010101 : Word), 1, 0], p &&& 0xFEFEFEFEFEFEFEFE = 0 :=
  ⟨by decide, ⟨rfl, rfl⟩, .inr rfl, by simp⟩
theorem witness_ExtremeKeys : (0x0101010101010101 : Word) &&& 0xFEFEFEFEFEFEFEFE = 0 ∧
    (0xFEFEFEFEFEFEFEFE : Word) &&& 0xFEFEFEFEFEFEFEFE = 0xFEFEFEFEFEFEFEFE := by decide
theorem witness_Subkeys_and_RoundFunction : 15 < 16 ∧ 7 < sboxes.length := by decide
theorem witness_EqualSubkeys : ∀ (i : Nat) (h : i < 16), zeroSchedule[i] = 0 := by
  intro i h
  simp [zeroSchedule]

end Sys2Proof.Tests
end

section
/-! The permutation primitive in FIPS bit numbering (R10, R11). -/

namespace Sys2Proof.Proofs

open Sys2Proof.Machine

/-- `permute_getLsbD` counts the output's bits and the table's entries from the right; counted from the left, as in R10, both
reversals cancel. -/
theorem fbit_permute {m n : Nat} (table : List Nat) (v : BitVec n) (hm : table.length = m) (j : Nat) (hj : j < table.length) :
    fbit (permute m table v) (j + 1) = fbit v table[j] := by
  have hentry : m - 1 - (m - (j + 1)) = j := by omega
  unfold fbit
  rw [permute_getLsbD table v hm (m - (j + 1)) (by omega)]
  simp only [hentry]

/-- Settles O43: it is `fbit_permute` at the table's own length. -/
theorem permuteSelectsTheNamedBits : Obligations.PermuteSelectsTheNamedBits :=
  fun _ table v j h => fbit_permute table v rfl j h

end Sys2Proof.Proofs
end

section
/-! What a command does to STATUS and to the slots, what it leaves, and what makes it succeed or fail (R26, R27, R29, R31, R32, R70,
R200 to R202). -/

namespace Sys2Proof.Proofs

open Sys2Proof.Machine

/-! `exec_cases` read from the other side: which check a command fails decides its next state. -/

theorem exec_badCtx {i : Instr} {s : State} (h : s.ctx.length ≤ i.slot) : exec i s = .next (raiseError .badCtx s) := by
  cases i <;> exact withSlot_outside h

theorem exec_wrongSlot {i : Instr} {s : State} {sl : Slot} (hs : s.ctx[i.slot]? = some sl) (hv : sl.valid = isLoad i) :
    exec i s = .next (raiseError (if isLoad i then .slotInUse else .noInstance) s) := by
  cases i with
  | desLoad c | tdesLoad c => exact loadInto_inUse hs hv
  | enc c | dec c | destroy c => exact withInstance_invalid hs hv

theorem exec_rightSlot {i : Instr} {s : State} {sl : Slot} (hs : s.ctx[i.slot]? = some sl) (hv : sl.valid = !isLoad i) :
    exec i s = .next (succeed (commandEffect i sl s)) := by
  cases i with
  | desLoad c | tdesLoad c => exact loadInto_free hs hv
  | enc c | dec c | destroy c => exact withInstance_valid hs hv

/-- A command writes no register but DOUT and STATUS, neither the mark nor the host side (R26, R31). -/
theorem exec_frame {i : Instr} {s t : State} (h : exec i s = .next t) :
    t = { s with ctx := t.ctx, dout := t.dout, errcode := t.errcode, errseen := t.errseen } := by
  obtain ⟨-, rfl⟩ | ⟨sl, -, ⟨-, rfl⟩ | ⟨-, rfl⟩⟩ := exec_cases h
  · rfl
  · rfl
  · cases i <;> rfl

/-- A command succeeds and leaves ERRSEEN, or reports an error beside ERRSEEN = 1 (R201, R202). -/
theorem exec_status {i : Instr} {s t : State} (h : exec i s = .next t) :
    (t.errcode = .ok ∧ t.errseen = s.errseen) ∨ (t.errcode ≠ .ok ∧ t.errseen = true) := by
  obtain ⟨-, rfl⟩ | ⟨sl, -, ⟨-, rfl⟩ | ⟨-, rfl⟩⟩ := exec_cases h
  · exact .inr ⟨nofun, rfl⟩
  · exact .inr ⟨by cases isLoad i <;> nofun, rfl⟩
  · exact .inl ⟨rfl, by rw [succeed_errseen, commandEffect_frame]⟩

/-- DOUT changes only by an `enc` or `dec` that succeeds (R32). -/
theorem exec_dout {i : Instr} {s t : State} (h : exec i s = .next t) (hd : t.dout ≠ s.dout) :
    (∃ c, i = .enc c ∨ i = .dec c) ∧ t.errcode = .ok := by
  obtain ⟨-, rfl⟩ | ⟨sl, -, ⟨-, rfl⟩ | ⟨-, rfl⟩⟩ := exec_cases h
  · exact absurd rfl hd
  · exact absurd rfl hd
  · refine ⟨?_, rfl⟩
    cases i with
    | enc c => exact ⟨c, .inl rfl⟩
    | dec c => exact ⟨c, .inr rfl⟩
    | desLoad c | tdesLoad c | destroy c => exact absurd rfl hd

/-- A valid slot outlives every command but its own `destroy` (R29). -/
theorem exec_keeps_validSlot {i : Instr} {s t : State} {c : Nat} {sl : Slot} (h : exec i s = .next t)
    (hs : s.ctx[c]? = some sl) (hv : sl.valid = true) (hi : i ≠ .destroy c) : t.ctx[c]? = some sl := by
  obtain ⟨-, rfl⟩ | ⟨own, hown, ⟨-, rfl⟩ | ⟨hright, rfl⟩⟩ := exec_cases h
  · exact hs
  · exact hs
  · by_cases hc : c = i.slot
    · subst hc
      cases hs.symm.trans hown
      have hload : isLoad i = false := by simpa [hv] using hright
      cases i with
      | desLoad c | tdesLoad c => cases hload
      | enc c | dec c => exact hs
      | destroy c => exact absurd rfl hi
    · exact ((commandEffect_ctx i own s).2 c hc).trans hs

/-- Settles O18: a failing command writes STATUS only, and `commandEffect_ctx` speaks of the others. -/
theorem commandTouchesOnlyItsSlot : Obligations.CommandTouchesOnlyItsSlot := by
  intro i s t h
  obtain ⟨-, rfl⟩ | ⟨sl, -, ⟨-, rfl⟩ | ⟨-, rfl⟩⟩ := exec_cases h
  · exact ⟨rfl, fun _ _ => rfl⟩
  · exact ⟨rfl, fun _ _ => rfl⟩
  · exact commandEffect_ctx i sl s

end Sys2Proof.Proofs
end

section
/-! One step as the effect of the access it takes: which accesses are undefined (R56), and that `Effect` says exactly what an access
does. -/

namespace Sys2Proof.Proofs

open Sys2Proof.Machine

/-- An offset in the window names a register exactly when it is aligned (R52). -/
theorem regAt_eq_none {off : Nat} (h : off < 64) : regAt off = none ↔ off % 8 ≠ 0 := by
  have hall : ∀ off < 64, (regAt off = none ↔ off % 8 ≠ 0) := by decide
  exact hall off h

/-- An access is undefined exactly when it is in the window and of another width or alignment (R56). -/
theorem target_eq_undefinedAccess {off width : Nat} :
    target off width = .undefinedAccess ↔ off < 64 ∧ (width ≠ 8 ∨ off % 8 ≠ 0) := by
  by_cases hoff : 64 ≤ off
  · simp [target_eq_outside.mpr hoff, Nat.not_lt.mpr hoff]
  · have hin : off < 64 := Nat.lt_of_not_le hoff
    by_cases hw : width = 8
    · rw [← regAt_eq_none hin]
      cases hr : regAt off <;> simp [target, hoff, hin, hw, hr]
    · simp [target, hoff, hin, hw]

/-- An access to a register by its offset (R52). -/
@[simp] theorem target_regOffset (r : Reg) : target (regOffset r) 8 = .reg r := target_eq_reg.mpr ⟨rfl, rfl⟩

theorem target_cmd : target 0x00 8 = .reg .cmd := rfl

/-- A 64-bit CMD write executes its word, whichever agent makes it (R57, R70). -/
theorem step_cmdWrite (a : Nat) (w : Word) (rest : List Arrival) (s : State) :
    step { s with arrivals := ⟨a, .write 0x00 8 w⟩ :: rest } = execute w { s with arrivals := rest } := rfl

/-- A write to a register other than CMD is a plain one (R55). -/
theorem writeReg_plain {r : Reg} (h : r ≠ .cmd) (v : Word) (s : State) : writeReg r v s = .next (writePlain r v s) := by
  cases r with
  | cmd => exact absurd rfl h
  | _ => rfl

/-- The converse of `perform_cases`: every effect of an access happens. -/
theorem perform_of_effect {a : Nat} {e : Event} {s t : State} (h : Effect a e s t) : perform a e s = .next t := by
  cases h with
  | resets d => rfl
  | reads r => simp [perform]
  | writes r v _ hr => simp [perform, writeReg_plain hr]
  | illegal w _ e hd => exact execute_illegal hd s
  | command w _ _ i hd he => exact (execute_command hd s).trans he
  | undefinedRead off width _ hu => simp [perform, hu]
  | undefinedWrite off width v _ hu => simp [perform, hu]

/-- `step_cases` in terms of the access that stands first. -/
theorem step_effect {s t : State} (h : step s = .next t) :
    (s.arrivals = [] ∧ t = s) ∨ ∃ a e, s.arrivals.head? = some ⟨a, e⟩ ∧ Effect a e { s with arrivals := s.arrivals.tail } t := by
  obtain hnone | ⟨⟨a, e⟩, rest, harr, heff⟩ := step_cases h
  · exact .inl hnone
  · exact .inr ⟨a, e, by simp [harr], by simpa [harr] using heff⟩

/-- The converse of `step_effect` for a step that takes an access. -/
theorem step_of_effect {s t : State} {a : Nat} {e : Event} (ha : s.arrivals.head? = some ⟨a, e⟩)
    (h : Effect a e { s with arrivals := s.arrivals.tail } t) : step s = .next t := by
  obtain ⟨rest, harr⟩ := List.head?_eq_some_iff.mp ha
  simp only [harr, List.tail_cons] at h
  simpa [step, harr] using perform_of_effect h

end Sys2Proof.Proofs
end

section
/-! What a dead slot, one that is not valid, holds cannot be observed (R30): every operation takes two states that differ only
there to two such states. -/

namespace Sys2Proof.Proofs

open Sys2Proof.Machine

/-- Two lists of slots that differ at most in dead slots: the last two clauses of `SameButDeadSlots`. -/
def SameLiveSlots (l l' : List Slot) : Prop :=
  l'.length = l.length ∧
    ∀ (c : Nat) (sl sl' : Slot), l[c]? = some sl → l'[c]? = some sl' → sl' = sl ∨ (sl.valid = false ∧ sl'.valid = false)

/-- `SameButDeadSlots` with the second state written as the first with other slots. -/
theorem sameButDeadSlots_iff {s s' : State} :
    SameButDeadSlots s s' ↔ ∃ l, SameLiveSlots s.ctx l ∧ s' = { s with ctx := l } := by
  constructor
  · rintro ⟨heq, hlive⟩
    exact ⟨s'.ctx, hlive, heq⟩
  · rintro ⟨l, hlive, rfl⟩
    exact ⟨rfl, hlive⟩

theorem sameButDeadSlots_refl (s : State) : SameButDeadSlots s s :=
  ⟨rfl, rfl, fun _ _ _ h h' => .inl (Option.some.inj (h'.symm.trans h))⟩

/-- Putting one slot into both lists. -/
theorem sameLiveSlots_set {l l' : List Slot} (h : SameLiveSlots l l') (c : Nat) (new : Slot) :
    SameLiveSlots (l.set c new) (l'.set c new) := by
  obtain ⟨hlen, hlive⟩ := h
  refine ⟨by simp [hlen], fun k sl sl' hk hk' => ?_⟩
  by_cases hck : c = k
  · subst hck
    simp only [List.getElem?_set_self', Option.map_eq_map, Option.map_eq_some_iff] at hk hk'
    obtain ⟨-, -, rfl⟩ := hk
    obtain ⟨-, -, rfl⟩ := hk'
    exact .inl rfl
  · rw [List.getElem?_set_ne hck] at hk hk'
    exact hlive k sl sl' hk hk'

/-- A slot has a counterpart, which is valid when it is and then equal to it. -/
theorem sameButDeadSlots_slot {s s' : State} {c : Nat} {sl : Slot} (h : SameButDeadSlots s s')
    (hs : s.ctx[c]? = some sl) :
    ∃ sl', s'.ctx[c]? = some sl' ∧ sl'.valid = sl.valid ∧ (sl.valid = true → sl' = sl) := by
  obtain ⟨-, hlen, hlive⟩ := h
  obtain ⟨hc, -⟩ := List.getElem?_eq_some_iff.mp hs
  have hs' : s'.ctx[c]? = some s'.ctx[c] := List.getElem?_eq_getElem (hlen ▸ hc)
  refine ⟨_, hs', ?_⟩
  obtain heq | ⟨hdead, hdead'⟩ := hlive c sl _ hs hs'
  · exact ⟨heq ▸ rfl, fun _ => heq⟩
  · exact ⟨hdead'.trans hdead.symm, fun hv => by simp [hdead] at hv⟩

/-- An update that neither reads nor writes the slots. -/
theorem sameButDeadSlots_update {s s' : State} (f : State → State) (hctx : (f s).ctx = s.ctx)
    (hf : ∀ l, f { s with ctx := l } = { f s with ctx := l }) (h : SameButDeadSlots s s') :
    SameButDeadSlots (f s) (f s') := by
  obtain ⟨l, hlive, rfl⟩ := sameButDeadSlots_iff.mp h
  exact sameButDeadSlots_iff.mpr ⟨l, hctx ▸ hlive, hf l⟩

/-- No register shows what a slot holds (R54). -/
theorem sameButDeadSlots_readReg {s s' : State} (h : SameButDeadSlots s s') (r : Reg) : readReg r s' = readReg r s := by
  obtain ⟨l, ⟨hlen, -⟩, rfl⟩ := sameButDeadSlots_iff.mp h
  cases r with
  | caps => simp [readReg, State.nCtx, hlen]
  | _ => rfl

/-- Reset overwrites all in which two such states differ (R230). -/
theorem sameButDeadSlots_resetWith {s s' : State} (h : SameButDeadSlots s s') (d : Draws) :
    resetWith d s' = resetWith d s := by
  obtain ⟨l, ⟨hlen, -⟩, rfl⟩ := sameButDeadSlots_iff.mp h
  simp [resetWith, hlen]

/-- A load uses nothing of the slot it overwrites, and the other commands use a valid slot. -/
theorem sameButDeadSlots_commandEffect {s s' : State} {sl sl' : Slot} (h : SameButDeadSlots s s') (i : Instr)
    (hsl : isLoad i = false → sl' = sl) : SameButDeadSlots (commandEffect i sl s) (commandEffect i sl' s') := by
  obtain ⟨l, hlive, rfl⟩ := sameButDeadSlots_iff.mp h
  rw [sameButDeadSlots_iff]
  cases i with
  | desLoad c | tdesLoad c => exact ⟨l.set c _, sameLiveSlots_set hlive c _, rfl⟩
  | enc c | dec c =>
    obtain rfl := hsl rfl
    exact ⟨l, hlive, rfl⟩
  | destroy c =>
    obtain rfl := hsl rfl
    exact ⟨l.set c _, sameLiveSlots_set hlive c _, rfl⟩

/-- Both states fail the same check of a command, or none. -/
theorem exec_sameButDeadSlots {i : Instr} {s s' t : State} (h : SameButDeadSlots s s') (he : exec i s = .next t) :
    ∃ t', exec i s' = .next t' ∧ SameButDeadSlots t t' := by
  have hraise : ∀ code, SameButDeadSlots (raiseError code s) (raiseError code s') := fun code =>
    sameButDeadSlots_update (raiseError code) rfl (fun _ => rfl) h
  obtain ⟨hc, rfl⟩ | ⟨sl, hs, hcase⟩ := exec_cases he
  · exact ⟨_, exec_badCtx (h.2.1 ▸ hc), hraise _⟩
  · obtain ⟨sl', hs', hvalid, hlive⟩ := sameButDeadSlots_slot h hs
    obtain ⟨hwrong, rfl⟩ | ⟨hright, rfl⟩ := hcase
    · exact ⟨_, exec_wrongSlot hs' (hvalid.trans hwrong), hraise _⟩
    · have heffect := sameButDeadSlots_commandEffect h i (fun hload => hlive (by simp [hright, hload]))
      exact ⟨_, exec_rightSlot hs' (hvalid.trans hright),
        sameButDeadSlots_update succeed rfl (fun _ => rfl) heffect⟩

/-- An access has the same effect on both states, up to dead slots. -/
theorem effect_sameButDeadSlots {a : Nat} {e : Event} {s s' t : State} (h : SameButDeadSlots s s') (he : Effect a e s t) :
    ∃ t', Effect a e s' t' ∧ SameButDeadSlots t t' := by
  cases he with
  | resets d => exact ⟨_, .resets a d s', sameButDeadSlots_resetWith h d ▸ sameButDeadSlots_refl _⟩
  | reads r =>
    refine ⟨_, .reads a r s', ?_⟩
    rw [sameButDeadSlots_readReg h r]
    exact sameButDeadSlots_update (reply a _) rfl (fun _ => rfl) h
  | writes r v _ hr =>
    exact ⟨_, .writes a r v s' hr,
      sameButDeadSlots_update (writePlain r v) (writePlain_ctx r v s) (fun _ => by cases r <;> rfl) h⟩
  | illegal w _ e hd =>
    exact ⟨_, .illegal a w s' e hd, sameButDeadSlots_update (raiseError .illegalCmd) rfl (fun _ => rfl) h⟩
  | command w _ _ i hd hexec =>
    obtain ⟨t', hexec', hsame⟩ := exec_sameButDeadSlots h hexec
    exact ⟨t', .command a w s' t' i hd hexec', hsame⟩
  | undefinedRead off width _ hu =>
    exact ⟨_, .undefinedRead a off width s' hu, sameButDeadSlots_update markRefused rfl (fun _ => rfl) h⟩
  | undefinedWrite off width v _ hu =>
    exact ⟨_, .undefinedWrite a off width v s' hu, sameButDeadSlots_update markRefused rfl (fun _ => rfl) h⟩

/-- Settles O24: the two states take the same access, and `effect_sameButDeadSlots` says what it does to both. -/
theorem deadSlotContentsCannotBeObserved : Obligations.DeadSlotContentsCannotBeObserved := by
  intro s s' t hsame hstep
  have harr : s'.arrivals = s.arrivals := by rw [hsame.1]
  obtain ⟨hnone, rfl⟩ | ⟨a, e, ha, heff⟩ := step_effect hstep
  · exact ⟨s', by simp [step, harr, hnone], hsame⟩
  · have htaken := sameButDeadSlots_update (fun s => { s with arrivals := s.arrivals.tail }) rfl (fun _ => rfl) hsame
    obtain ⟨t', heff', hsame'⟩ := effect_sameButDeadSlots htaken heff
    exact ⟨t', step_of_effect (harr ▸ ha) heff', hsame'⟩

end Sys2Proof.Proofs
end

section
/-! The machine invariant (R8, R24, R28): it holds at reset, and every access keeps it. -/

namespace Sys2Proof.Proofs

open Sys2Proof.Machine

/-- A dead slot may hold anything (R30). -/
theorem slotWf_of_invalid {sl : Slot} (h : sl.valid = false) : slotWf sl :=
  fun hv => absurd hv (by simp [h])

theorem slotWf_desInstance (k : Word) : slotWf (desInstance k) :=
  fun _ => ⟨rfl, rfl, rfl, rfl, rfl⟩

theorem slotWf_tdesInstance (keys : Vector Word 3) : slotWf (tdesInstance keys) :=
  fun _ => ⟨(tdesInstance_engine keys (j := 0) (by decide)).2, (tdesInstance_engine keys (j := 1) (by decide)).2,
    (tdesInstance_engine keys (j := 2) (by decide)).2⟩

/-- Putting a well-formed slot among well-formed ones. -/
theorem setSlot_slotWf {s : State} {c : Nat} {new : Slot} (h : ∀ sl ∈ s.ctx, slotWf sl) (hnew : slotWf new) :
    ∀ sl ∈ (setSlot c new s).ctx, slotWf sl := by
  intro sl hsl
  obtain hold | rfl := List.mem_or_eq_of_mem_set hsl
  · exact h sl hold
  · exact hnew

/-- Loads build well-formed slots, `destroy` leaves a dead one, and `enc` and `dec` leave the slots (R28). -/
theorem commandEffect_slotWf {s : State} (h : ∀ sl ∈ s.ctx, slotWf sl) (i : Instr) (own : Slot) :
    ∀ sl ∈ (commandEffect i own s).ctx, slotWf sl := by
  cases i with
  | desLoad c => exact setSlot_slotWf h (slotWf_desInstance _)
  | tdesLoad c => exact setSlot_slotWf h (slotWf_tdesInstance _)
  | enc c | dec c => exact h
  | destroy c => exact setSlot_slotWf h (slotWf_of_invalid rfl)

theorem exec_slotWf {i : Instr} {s t : State} (he : exec i s = .next t) (h : ∀ sl ∈ s.ctx, slotWf sl) :
    ∀ sl ∈ t.ctx, slotWf sl := by
  obtain ⟨-, rfl⟩ | ⟨own, -, ⟨-, rfl⟩ | ⟨-, rfl⟩⟩ := exec_cases he
  · exact h
  · exact h
  · exact commandEffect_slotWf h i own

/-- The invariant speaks of the number of slots, of the slots and of STATUS only. -/
theorem stateInv_transfer {s t : State} (h : StateInv s) (hn : t.nCtx = s.nCtx)
    (hwf : ∀ sl ∈ t.ctx, slotWf sl) (herr : t.errcode ≠ .ok → t.errseen = true) : StateInv t :=
  ⟨hn ▸ h.slots_min, hn ▸ h.slots_max, hwf, herr⟩

/-- An update that leaves the slots and STATUS keeps the invariant. -/
theorem stateInv_of_sameSlots_sameStatus {s t : State} (h : StateInv s) (hctx : t.ctx = s.ctx)
    (hcode : t.errcode = s.errcode) (hseen : t.errseen = s.errseen) : StateInv t :=
  stateInv_transfer h (congrArg List.length hctx) (hctx ▸ h.slots_wf) (hcode ▸ hseen ▸ h.error_seen)

theorem exec_stateInv {i : Instr} {s t : State} (h : StateInv s) (he : exec i s = .next t) : StateInv t := by
  refine stateInv_transfer h (commandTouchesOnlyItsSlot i s t he).1 (exec_slotWf he h.slots_wf) fun hne => ?_
  obtain ⟨hok, -⟩ | ⟨-, hseen⟩ := exec_status he
  · exact absurd hok hne
  · exact hseen

theorem effect_stateInv {a : Nat} {e : Event} {s t : State} (h : StateInv s) (he : Effect a e s t) : StateInv t := by
  cases he with
  | resets d =>
    refine stateInv_transfer h (resetWith_nCtx d s) (fun sl hsl => ?_) (absurd rfl)
    obtain ⟨c, hc⟩ := List.getElem?_of_mem hsl
    exact slotWf_of_invalid (resetWith_getElem? hc ▸ drawnSlot_valid d c)
  | reads r => exact stateInv_of_sameSlots_sameStatus h rfl rfl rfl
  | writes r v _ hr => exact stateInv_of_sameSlots_sameStatus h (by simp) (by simp) (by simp)
  | illegal w _ e hd => exact stateInv_transfer h rfl h.slots_wf fun _ => rfl
  | command w _ _ i hd hexec => exact exec_stateInv h hexec
  | undefinedRead off width _ hu => exact stateInv_of_sameSlots_sameStatus h rfl rfl rfl
  | undefinedWrite off width v _ hu => exact stateInv_of_sameSlots_sameStatus h rfl rfl rfl

/-- Settles O42: the access the step takes keeps the invariant. -/
theorem stepKeepsTheInvariant : Obligations.StepKeepsTheInvariant := by
  intro s t h hstep
  obtain ⟨-, rfl⟩ | ⟨a, e, -, heff⟩ := step_effect hstep
  · exact h
  · have htaken : StateInv { s with arrivals := s.arrivals.tail } := stateInv_of_sameSlots_sameStatus h rfl rfl rfl
    exact effect_stateInv htaken heff

/-- No slot of the reset state is valid (R230). -/
theorem reset_slots_invalid : ∀ sl ∈ State.reset.ctx, sl.valid = false := by
  intro sl hsl
  obtain ⟨c, -, rfl⟩ := List.mem_map.mp hsl
  rfl

/-- Settles O40: the fields are the stated ones, and `reset_slots_invalid` speaks of the slots. -/
theorem resetStateHasTheStatedValues : Obligations.ResetStateHasTheStatedValues :=
  ⟨by decide, reset_slots_invalid, rfl, rfl, rfl⟩

/-- Settles O41: there are four slots, none of them valid, and no error. -/
theorem resetStateSatisfiesTheInvariant : Obligations.ResetStateSatisfiesTheInvariant where
  slots_min := by decide
  slots_max := by decide
  slots_wf sl hsl := slotWf_of_invalid (reset_slots_invalid sl hsl)
  error_seen := absurd rfl

end Sys2Proof.Proofs
end

section
/-! What each kind of access changes: ERRSEEN, the valid slots, DOUT, the staging registers and the mark (R24, R26, R29, R31, R32,
R35). -/

namespace Sys2Proof.Proofs

open Sys2Proof.Machine

/-- Settles O6: `step_cmdWrite` for any agent; the word that `withFetchWord` places is `w` itself, since it has 64 bits. -/
theorem stepRunsTheDecodedCommand : Obligations.StepRunsTheDecodedCommand := by
  intro s w i hd
  have hw : tableWord 64 w.toNat = w := by
    rw [tableWord, Nat.mod_eq_of_lt w.isLt, BitVec.ofNat_toNat, BitVec.setWidth_eq]
  have harrive : step (s.withFetchWord 64 w.toNat) = execute w s := by
    rw [State.withFetchWord, hw]
    exact step_cmdWrite 0 w s.arrivals s
  exact ⟨fun a rest => (step_cmdWrite a w rest s).trans (execute_command hd _), harrive.trans (execute_command hd s)⟩

theorem effect_errseen {a : Nat} {e : Event} {s t : State} (he : Effect a e s t) (hreset : ∀ d, e ≠ .reset d) :
    (s.errseen = true → t.errseen = true) ∧ (s.errseen = false → t.errseen = true → t.errcode ≠ .ok) := by
  cases he with
  | resets d => exact absurd rfl (hreset d)
  | illegal w _ e hd => exact ⟨fun _ => rfl, fun _ _ => nofun⟩
  | command w _ _ i hd hexec =>
    obtain ⟨-, hkept⟩ | ⟨hne, hseen⟩ := exec_status hexec
    · simp +contextual [hkept]
    · exact ⟨fun _ => hseen, fun _ _ => hne⟩
  | reads | writes | undefinedRead | undefinedWrite => simp +contextual

/-- Settles O16: only a command writes ERRSEEN, and `exec_status` says how. -/
theorem errseenIsStickyUntilReset : Obligations.ErrseenIsStickyUntilReset := by
  intro s t hstep hreset
  obtain ⟨-, rfl⟩ | ⟨a, e, ha, heff⟩ := step_effect hstep
  · simp +contextual
  · have hseen := effect_errseen heff fun d hd => hreset a d (hd ▸ ha)
    exact hseen

theorem effect_keeps_validSlot {a : Nat} {e : Event} {s t : State} {c : Nat} {sl : Slot} (he : Effect a e s t)
    (hs : s.ctx[c]? = some sl) (hv : sl.valid = true) (hreset : ∀ d, e ≠ .reset d)
    (hdestroy : ∀ w, e = .write 0x00 8 w → decode w ≠ .ok (.destroy c)) : t.ctx[c]? = some sl := by
  cases he with
  | resets d => exact absurd rfl (hreset d)
  | command w _ _ i hd hexec => exact exec_keeps_validSlot hexec hs hv fun hi => hdestroy w rfl (hi ▸ hd)
  | reads | writes | illegal | undefinedRead | undefinedWrite => simpa using hs

/-- Settles O17: `effect_keeps_validSlot`, and a load finds the slot in use. -/
theorem validSlotChangesOnlyByItsDestroyOrReset : Obligations.ValidSlotChangesOnlyByItsDestroyOrReset := by
  refine ⟨fun s t c sl hstep hs hv hreset hdestroy => ?_, fun s c sl hs hv i hi => ?_⟩
  · obtain ⟨-, rfl⟩ | ⟨a, e, ha, heff⟩ := step_effect hstep
    · exact hs
    · exact effect_keeps_validSlot heff hs hv (fun d hd => hreset a d (hd ▸ ha)) fun w hw => hdestroy a w (hw ▸ ha)
  · obtain rfl | rfl := hi <;> exact exec_wrongSlot hs hv

theorem effect_dout {a : Nat} {e : Event} {s t : State} (he : Effect a e s t) (hd : t.dout ≠ s.dout) :
    (∃ d, e = .reset d) ∨
      ∃ w c, e = .write 0x00 8 w ∧ (decode w = .ok (.enc c) ∨ decode w = .ok (.dec c)) ∧ t.errcode = .ok := by
  cases he with
  | resets d => exact .inl ⟨d, rfl⟩
  | command w _ _ i hdec hexec =>
    obtain ⟨⟨c, rfl | rfl⟩, hok⟩ := exec_dout hexec hd
    · exact .inr ⟨w, c, rfl, .inl hdec, hok⟩
    · exact .inr ⟨w, c, rfl, .inr hdec, hok⟩
  | reads | writes | illegal | undefinedRead | undefinedWrite => simp at hd

/-- Settles O19: among the effects of an access, only reset and a successful `enc` or `dec` write DOUT. -/
theorem doutChangesOnlyByEncDecOrReset : Obligations.DoutChangesOnlyByEncDecOrReset := by
  intro s t hstep hd
  obtain ⟨-, rfl⟩ | ⟨a, e, ha, heff⟩ := step_effect hstep
  · exact absurd rfl hd
  · obtain ⟨d, rfl⟩ | ⟨w, c, rfl, hdec, hok⟩ := effect_dout heff hd
    · exact .inl ⟨a, d, ha⟩
    · exact .inr ⟨a, w, c, ha, hdec, hok⟩

theorem effect_keyStage {a : Nat} {e : Event} {s t : State} (he : Effect a e s t) (hk : t.keyStage ≠ s.keyStage) :
    (∃ d, e = .reset d) ∨ ∃ off v, (off = 0x10 ∨ off = 0x18 ∨ off = 0x20) ∧ e = .write off 8 v := by
  cases he with
  | resets d => exact .inl ⟨d, rfl⟩
  | writes r v _ hr =>
    cases r with
    | key1 | key2 | key3 => exact .inr ⟨_, v, by decide, rfl⟩
    | cmd | status | din | dout | caps => exact absurd rfl hk
  | command w _ _ i hd hexec => exact absurd (congrArg State.keyStage (exec_frame hexec)) hk
  | reads | illegal | undefinedRead | undefinedWrite => exact absurd rfl hk

theorem effect_din {a : Nat} {e : Event} {s t : State} (he : Effect a e s t) (hdin : t.din ≠ s.din) :
    (∃ d, e = .reset d) ∨ ∃ v, e = .write 0x28 8 v := by
  cases he with
  | resets d => exact .inl ⟨d, rfl⟩
  | writes r v _ hr =>
    cases r with
    | din => exact .inr ⟨v, rfl⟩
    | cmd | status | key1 | key2 | key3 | dout | caps => exact absurd rfl hdin
  | command w _ _ i hd hexec => exact absurd (congrArg State.din (exec_frame hexec)) hdin
  | reads | illegal | undefinedRead | undefinedWrite => exact absurd rfl hdin

/-- Settles O20: a clause for each of `effect_keyStage` and `effect_din`. -/
theorem stagingChangesOnlyByHostWriteOrReset : Obligations.StagingChangesOnlyByHostWriteOrReset := by
  intro s t hstep
  obtain ⟨-, rfl⟩ | ⟨a, e, ha, heff⟩ := step_effect hstep
  · exact ⟨absurd rfl, absurd rfl⟩
  · constructor
    · intro hk
      obtain ⟨d, rfl⟩ | ⟨off, v, hoff, rfl⟩ := effect_keyStage heff hk
      · exact .inl ⟨a, d, ha⟩
      · exact .inr ⟨a, off, v, hoff, ha⟩
    · intro hdin
      obtain ⟨d, rfl⟩ | ⟨v, rfl⟩ := effect_din heff hdin
      · exact .inl ⟨a, d, ha⟩
      · exact .inr ⟨a, v, ha⟩

/-- An access that R56 leaves undefined. -/
def UndefinedEvent (e : Event) : Prop :=
  ∃ off width, off < 64 ∧ (width ≠ 8 ∨ off % 8 ≠ 0) ∧ (e = .read off width ∨ ∃ v, e = .write off width v)

theorem undefinedEvent_read {off width : Nat} :
    UndefinedEvent (.read off width) ↔ target off width = .undefinedAccess := by
  simp [UndefinedEvent, target_eq_undefinedAccess]

theorem undefinedEvent_write {off width : Nat} {v : Word} :
    UndefinedEvent (.write off width v) ↔ target off width = .undefinedAccess := by
  simp [UndefinedEvent, target_eq_undefinedAccess]

theorem not_undefinedEvent_reset (d : Draws) : ¬ UndefinedEvent (.reset d) := by
  rintro ⟨off, width, -, -, heq | ⟨v, heq⟩⟩ <;> cases heq

theorem effect_refused {a : Nat} {e : Event} {s t : State} (he : Effect a e s t) :
    t.refused = true ↔ s.refused = true ∨ UndefinedEvent e := by
  cases he with
  | resets d => simp [not_undefinedEvent_reset]
  | reads r => simp [undefinedEvent_read]
  | writes r v _ hr => simp [undefinedEvent_write]
  | illegal w _ e hd => simp [undefinedEvent_write, target_cmd]
  | command w _ _ i hd hexec =>
    have hkept : t.refused = s.refused := by rw [exec_frame hexec]
    simp [hkept, undefinedEvent_write, target_cmd]
  | undefinedRead off width _ hu => simp [undefinedEvent_read, hu]
  | undefinedWrite off width v _ hu => simp [undefinedEvent_write, hu]

/-- Settles O29: `effect_refused`, and the access taken is the one that stands first. -/
theorem refusedMarkIsSetOnlyByUndefinedAccessAndStays : Obligations.RefusedMarkIsSetOnlyByUndefinedAccessAndStays := by
  intro s t hstep
  obtain ⟨hnone, rfl⟩ | ⟨a, e, ha, heff⟩ := step_effect hstep
  · simp [hnone]
  · refine (effect_refused heff).trans (or_congr Iff.rfl ⟨?_, ?_⟩)
    · rintro ⟨off, width, hoff, hbad, rfl | ⟨v, rfl⟩⟩
      · exact ⟨a, off, width, hoff, hbad, .inl ha⟩
      · exact ⟨a, off, width, hoff, hbad, .inr ⟨v, ha⟩⟩
    · rintro ⟨b, off, width, hoff, hbad, hb | ⟨v, hb⟩⟩
      · cases ha.symm.trans hb
        exact ⟨off, width, hoff, hbad, .inl rfl⟩
      · cases ha.symm.trans hb
        exact ⟨off, width, hoff, hbad, .inr ⟨v, rfl⟩⟩

/-- A step from a state with the mark ends in one with it (R35). -/
theorem trusted_of_step {s t : State} (hstep : step s = .next t) (ht : Trusted t) : Trusted s :=
  Bool.eq_false_iff.mpr fun hs =>
    Bool.eq_false_iff.mp ht ((refusedMarkIsSetOnlyByUndefinedAccessAndStays s t hstep).mpr (.inl hs))

/-- Settles O30, by induction on the run from its last step backwards. -/
theorem trustedLastStateMeansTrustedRun : Obligations.TrustedLastStateMeansTrustedRun := by
  intro s t hrun
  induction hrun with
  | refl => exact id
  | tail _ hstep ih => exact fun ht => ih (trusted_of_step hstep ht)

end Sys2Proof.Proofs
end

section
/-! What `enc` and `dec` compute from the slot they use (R28, R34, R154, R181, R182, R184). -/

namespace Sys2Proof.Proofs

open Sys2Proof.Machine

theorem exec_enc_valid {s : State} {c : Nat} {sl : Slot} (hs : s.ctx[c]? = some sl) (hv : sl.valid = true) :
    exec (.enc c) s = .next (succeed { s with dout := encryptWith sl s.din }) :=
  exec_rightSlot (i := .enc c) hs hv

theorem exec_dec_valid {s : State} {c : Nat} {sl : Slot} (hs : s.ctx[c]? = some sl) (hv : sl.valid = true) :
    exec (.dec c) s = .next (succeed { s with dout := decryptWith sl s.din }) :=
  exec_rightSlot (i := .dec c) hs hv

/-- Neither the keys of a slot nor its valid bit reach the result (R34). -/
theorem encryptWith_congr {sl sl' : Slot} (hkind : sl.kind = sl'.kind) (hks : sl.ks = sl'.ks) (b : Word) :
    encryptWith sl b = encryptWith sl' b := by
  simp only [encryptWith, hkind, hks]

theorem decryptWith_congr {sl sl' : Slot} (hkind : sl.kind = sl'.kind) (hks : sl.ks = sl'.ks) (b : Word) :
    decryptWith sl b = decryptWith sl' b := by
  simp only [decryptWith, hkind, hks]

/-- Settles O21: DOUT is `encryptWith` or `decryptWith` of the slot, which see its kind and schedules only. -/
theorem blockResultDependsOnlyOnInstanceAndDin : Obligations.BlockResultDependsOnlyOnInstanceAndDin := by
  intro s₁ s₂ c₁ c₂ sl₁ sl₂ hs₁ hs₂ hv₁ hv₂ hkind hks hdin
  constructor
  · refine ⟨_, _, exec_enc_valid hs₁ hv₁, exec_enc_valid hs₂ hv₂, ?_⟩
    simp only [succeed_dout, hdin, encryptWith_congr hkind hks]
  · refine ⟨_, _, exec_dec_valid hs₁ hv₁, exec_dec_valid hs₂ hv₂, ?_⟩
    simp only [succeed_dout, hdin, decryptWith_congr hkind hks]

/-- The engine a valid DES slot uses holds the schedule of its key (R28). -/
theorem slotWf_des {sl : Slot} (h : slotWf sl) (hv : sl.valid = true) (hkind : sl.kind = .des) :
    sl.ks[0] = keySchedule sl.key[0] := by
  have hwf := h hv
  rw [hkind] at hwf
  exact hwf.1

/-- The three engines of a valid Triple-DES slot hold the schedules of their keys (R28). -/
theorem slotWf_tdes {sl : Slot} (h : slotWf sl) (hv : sl.valid = true) (hkind : sl.kind = .tdes) :
    sl.ks[0] = keySchedule sl.key[0] ∧ sl.ks[1] = keySchedule sl.key[1] ∧ sl.ks[2] = keySchedule sl.key[2] := by
  have hwf := h hv
  rw [hkind] at hwf
  exact hwf

/-- Settles O23: by the invariant the stored schedules are those of the keys. -/
theorem storedSchedulesActAsRecomputedOnes : Obligations.StoredSchedulesActAsRecomputedOnes := by
  intro s c sl hinv hs hv
  have hwf := hinv.slots_wf sl (List.mem_of_getElem? hs)
  constructor
  · intro hkind
    have hks := slotWf_des hwf hv hkind
    exact ⟨⟨_, exec_enc_valid hs hv, by simp only [succeed_dout, encryptWith, hkind, hks]⟩,
      ⟨_, exec_dec_valid hs hv, by simp only [succeed_dout, decryptWith, hkind, hks]⟩⟩
  · intro hkind
    obtain ⟨hks₀, hks₁, hks₂⟩ := slotWf_tdes hwf hv hkind
    exact ⟨⟨_, exec_enc_valid hs hv, by simp only [succeed_dout, encryptWith, hkind, hks₀, hks₁, hks₂]⟩,
      ⟨_, exec_dec_valid hs hv, by simp only [succeed_dout, decryptWith, hkind, hks₀, hks₁, hks₂]⟩⟩

end Sys2Proof.Proofs
end

section
/-! What a host access answers: a fault past the window (R51), the mark for an undefined access (R56), a register's value or its
write otherwise (R54, R55). -/

namespace Sys2Proof.Proofs

open Sys2Proof.Machine

/-- The checks of a command are exhaustive: its slot is missing, in the wrong state or in the right one (R203). -/
theorem exec_answers (i : Instr) (s : State) : ∃ t, exec i s = .next t := by
  rcases hs : s.ctx[i.slot]? with _ | sl
  · exact ⟨_, exec_badCtx (List.getElem?_eq_none_iff.mp hs)⟩
  · by_cases hv : sl.valid = isLoad i
    · exact ⟨_, exec_wrongSlot hs hv⟩
    · exact ⟨_, exec_rightSlot hs (Bool.eq_not.mpr hv)⟩

theorem execute_answers (w : Word) (s : State) : ∃ t, execute w s = .next t := by
  rcases hd : decode w with e | i
  · exact ⟨_, execute_illegal hd s⟩
  · rw [execute_command hd]
    exact exec_answers i s

theorem writeReg_answers (r : Reg) (v : Word) (s : State) : ∃ t, writeReg r v s = .next t := by
  by_cases hr : r = .cmd
  · subst hr
    exact execute_answers v s
  · exact ⟨_, writeReg_plain hr v s⟩

/-- An access past the 64-byte window (R51). -/
def OutsideEvent (e : Event) : Prop :=
  ∃ off width, 64 ≤ off ∧ (e = .read off width ∨ ∃ v, e = .write off width v)

theorem outsideEvent_read {off width : Nat} : OutsideEvent (.read off width) ↔ target off width = .outside := by
  simp [OutsideEvent, target_eq_outside]

theorem outsideEvent_write {off width : Nat} {v : Word} :
    OutsideEvent (.write off width v) ↔ target off width = .outside := by
  simp [OutsideEvent, target_eq_outside]

theorem perform_outside {e : Event} (he : OutsideEvent e) (a : Nat) (s : State) :
    perform a e s = .fault .outsideWindow := by
  obtain ⟨off, width, hoff, rfl | ⟨v, rfl⟩⟩ := he <;> simp [perform, target_eq_outside.mpr hoff]

theorem perform_answers {e : Event} (he : ¬ OutsideEvent e) (a : Nat) (s : State) : ∃ t, perform a e s = .next t := by
  cases e with
  | reset d => exact ⟨_, rfl⟩
  | read off width =>
    cases ht : target off width with
    | outside => exact absurd (outsideEvent_read.mpr ht) he
    | undefinedAccess => exact ⟨_, perform_of_effect (.undefinedRead a off width s ht)⟩
    | reg r => simp [perform, ht]
  | write off width v =>
    cases ht : target off width with
    | outside => exact absurd (outsideEvent_write.mpr ht) he
    | undefinedAccess => exact ⟨_, perform_of_effect (.undefinedWrite a off width v s ht)⟩
    | reg r => simpa [perform, ht] using writeReg_answers r v s

/-- The next access to be taken is past the window. -/
def OutsideNext (s : State) : Prop :=
  ∃ a off width, 64 ≤ off ∧
    (s.arrivals.head? = some ⟨a, .read off width⟩ ∨ ∃ v, s.arrivals.head? = some ⟨a, .write off width v⟩)

theorem outsideNext_iff {s : State} : OutsideNext s ↔ ∃ a e, s.arrivals.head? = some ⟨a, e⟩ ∧ OutsideEvent e := by
  constructor
  · rintro ⟨a, off, width, hoff, ha | ⟨v, ha⟩⟩
    · exact ⟨a, _, ha, off, width, hoff, .inl rfl⟩
    · exact ⟨a, _, ha, off, width, hoff, .inr ⟨v, rfl⟩⟩
  · rintro ⟨a, e, ha, off, width, hoff, rfl | ⟨v, rfl⟩⟩
    · exact ⟨a, off, width, hoff, .inl ha⟩
    · exact ⟨a, off, width, hoff, .inr ⟨v, ha⟩⟩

theorem step_outside {s : State} (h : OutsideNext s) : step s = .fault .outsideWindow := by
  obtain ⟨a, e, ha, he⟩ := outsideNext_iff.mp h
  obtain ⟨rest, harr⟩ := List.head?_eq_some_iff.mp ha
  simp [step, harr, perform_outside he]

theorem step_answers {s : State} (h : ¬ OutsideNext s) : ∃ t, step s = .next t := by
  unfold step
  split
  · exact ⟨s, rfl⟩
  · rename_i a rest harr
    exact perform_answers (fun he => h (outsideNext_iff.mpr ⟨a.agent, a.event, by simp [harr], he⟩)) a.agent _

/-- Settles O31: the step faults when the next access is past the window (`step_outside`), and answers a next state otherwise
(`step_answers`). -/
theorem stepStopsOnlyOutsideTheWindow : Obligations.StepStopsOnlyOutsideTheWindow := by
  have hstops : ∀ s f, step s = .fault f ↔ f = .outsideWindow ∧ OutsideNext s := by
    intro s f
    by_cases h : OutsideNext s
    · simp [step_outside h, h]
    · obtain ⟨t, ht⟩ := step_answers h
      simp [ht, h]
  refine ⟨fun s r hr => ?_, hstops⟩
  by_cases h : OutsideNext s
  · cases (step_outside h).symm.trans hr
  · obtain ⟨t, ht⟩ := step_answers h
    cases ht.symm.trans hr

/-- A 64-bit read of a register returns its value to the agent and changes nothing else (R54). -/
theorem step_regRead (a : Nat) (r : Reg) (rest : List Arrival) (s : State) :
    step { s with arrivals := ⟨a, .read (regOffset r) 8⟩ :: rest } =
      .next { s with arrivals := rest, replies := ⟨a, readReg r s⟩ :: s.replies } :=
  step_of_effect rfl (.reads a r { s with arrivals := rest })

/-- A 64-bit write to a register other than CMD is a plain one (R55). -/
theorem step_plainWrite (a : Nat) {r : Reg} (hr : r ≠ .cmd) (v : Word) (rest : List Arrival) (s : State) :
    step { s with arrivals := ⟨a, .write (regOffset r) 8 v⟩ :: rest } =
      .next (writePlain r v { s with arrivals := rest }) :=
  step_of_effect rfl (.writes a r v { s with arrivals := rest } hr)

/-- ERRSEEN and ERRCODE share no bit of STATUS, so the word is their sum (R24). -/
theorem statusWord_eq_sum (s : State) :
    statusWord s = BitVec.ofNat 64 ((if s.errseen then 256 else 0) + (errcodeNumber s.errcode).toNat) := by
  unfold statusWord
  cases s.errseen <;> cases s.errcode <;> rfl

/-- Settles O26: each pair of the list is a register's offset and its `readReg`. -/
theorem registerReadsReturnTheirValues : Obligations.RegisterReadsReturnTheirValues := by
  intro s a rest off v hmem
  obtain ⟨r, rfl, rfl⟩ : ∃ r, off = regOffset r ∧ v = readReg r s := by
    rw [← statusWord_eq_sum] at hmem
    simp only [List.mem_cons, List.not_mem_nil, or_false, Prod.mk.injEq] at hmem
    obtain h | h | h | h | h | h | h | h := hmem
    exacts [⟨.cmd, h⟩, ⟨.status, h⟩, ⟨.key1, h⟩, ⟨.key2, h⟩, ⟨.key3, h⟩, ⟨.din, h⟩, ⟨.dout, h⟩, ⟨.caps, h⟩]
  exact step_regRead a r rest s

theorem keys_eta (k : Vector Word 3) : k = #v[k[0], k[1], k[2]] :=
  Vector.ext fun i hi =>
    match i, hi with
    | 0, _ | 1, _ | 2, _ => rfl

/-- The three keys with one of them replaced, written out. -/
theorem keys_set (k : Vector Word 3) (v : Word) :
    k.set 0 v = #v[v, k[1], k[2]] ∧ k.set 1 v = #v[k[0], v, k[2]] ∧ k.set 2 v = #v[k[0], k[1], v] := by
  rw [keys_eta k]
  exact ⟨rfl, rfl, rfl⟩

/-- Settles O27: CMD by `step_cmdWrite`, the other registers by `step_plainWrite`. -/
theorem registerWritesHaveTheirEffects : Obligations.RegisterWritesHaveTheirEffects := by
  intro s a rest v
  obtain ⟨hkey1, hkey2, hkey3⟩ := keys_set s.keyStage v
  have hplain := fun (r : Reg) (hr : r ≠ .cmd) => step_plainWrite a hr v rest s
  rw [← hkey1, ← hkey2, ← hkey3]
  refine ⟨step_cmdWrite a v rest s, hplain .key1 nofun, hplain .key2 nofun, hplain .key3 nofun, hplain .din nofun, ?_⟩
  rintro off (rfl | rfl | rfl)
  · exact hplain .status nofun
  · exact hplain .dout nofun
  · exact hplain .caps nofun

/-- Settles O28: by `target_eq_undefinedAccess` the access is one of the two effects that only set the mark. -/
theorem undefinedAccessOnlySetsTheMark : Obligations.UndefinedAccessOnlySetsTheMark := by
  intro s a off width v rest hoff hbad
  have hu : target off width = .undefinedAccess := target_eq_undefinedAccess.mpr ⟨hoff, hbad⟩
  exact ⟨step_of_effect rfl (.undefinedRead a off width { s with arrivals := rest } hu),
    step_of_effect rfl (.undefinedWrite a off width v { s with arrivals := rest } hu)⟩

end Sys2Proof.Proofs
end

section
/-! The command word field by field (R71): a word is its four fields, and the decoder reads a command from it exactly when OP and CTX
are the command's and the reserved fields are zero (R72 to R75).  From this follow the laws of the encoder, of the opcode table and
of the host's pseudo-instructions (R78, R79). -/

namespace Sys2Proof.Proofs

open Sys2Proof.Machine Sys2Proof.Laws

/-! The fields of a word. -/

/-- A word is RSV1, CTX, RSV0 and OP, the most significant first (R71). -/
theorem word_eq_fields (w : Word) : rsv1Field w ++ ctxField w ++ rsv0Field w ++ opField w = w := by
  have hctx : rsv1Field w ++ ctxField w = w.extractLsb' 8 56 := BitVec.extractLsb'_append_extractLsb'_eq_extractLsb' rfl
  have hrsv0 : w.extractLsb' 8 56 ++ rsv0Field w = w.extractLsb' 4 60 := BitVec.extractLsb'_append_extractLsb'_eq_extractLsb' rfl
  have hop : w.extractLsb' 4 60 ++ opField w = w := BitVec.extractLsb'_append_extractLsb'
  rw [hctx, hrsv0, hop]

/-- A word has one reading as four fields. -/
theorem fields_inj {r r' : BitVec 48} {c c' : BitVec 8} {z z' o o' : BitVec 4} :
    r ++ c ++ z ++ o = r' ++ c' ++ z' ++ o' ↔ r = r' ∧ c = c' ∧ z = z' ∧ o = o' := by
  have hsplit {m n : Nat} {x x' : BitVec m} {y y' : BitVec n} : x ++ y = x' ++ y' ↔ x = x' ∧ y = y' := by
    refine ⟨fun h => ⟨?_, ?_⟩, fun ⟨hx, hy⟩ => by rw [hx, hy]⟩
    · simpa [BitVec.extractLsb'_append_eq_left] using congrArg (·.extractLsb' n m) h
    · simpa [BitVec.setWidth_append] using congrArg (·.setWidth n) h
  rw [hsplit, hsplit, hsplit, and_assoc, and_assoc]

/-- Under a mask of RSV1, RSV0 and the OP bits of `m`, a word is `op` alone exactly when its reserved fields are zero and its OP is
`op` under `m`. -/
theorem maskedWord_eq_iff {w : Word} {m op : BitVec 4} :
    w &&& (BitVec.allOnes 48 ++ 0#8 ++ BitVec.allOnes 4 ++ m) = 0#48 ++ 0#8 ++ 0#4 ++ op ↔
      rsv1Field w = 0 ∧ rsv0Field w = 0 ∧ opField w &&& m = op := by
  conv_lhs => rw [← word_eq_fields w, BitVec.and_append, BitVec.and_append, BitVec.and_append, BitVec.and_allOnes,
    BitVec.and_zero, BitVec.and_allOnes, fields_inj]
  simp

/-- The mask of the reserved bits (R74). -/
theorem reservedBits_eq_zero {w : Word} : w &&& 0xFFFFFFFFFFFF00F0 = 0 ↔ rsv1Field w = 0 ∧ rsv0Field w = 0 := by
  have h := maskedWord_eq_iff (w := w) (m := 0) (op := 0)
  simpa using h

/-- The mask of the opcode table, all bits but CTX (R71, R72). -/
theorem opcodeBits_eq {w : Word} {op : BitVec 4} :
    w &&& 0xFFFFFFFFFFFF00FF = 0#48 ++ 0#8 ++ 0#4 ++ op ↔ rsv1Field w = 0 ∧ rsv0Field w = 0 ∧ opField w = op := by
  have h := maskedWord_eq_iff (w := w) (m := .allOnes 4) (op := op)
  rwa [BitVec.and_allOnes] at h

theorem opField_toNat (w : Word) : (opField w).toNat = w.toNat % 16 := by
  simp [opField]

theorem ctxField_toNat (w : Word) : (ctxField w).toNat = w.toNat / 256 % 256 := by
  simp [ctxField, Nat.shiftRight_eq_div_pow]

/-! The decoder. -/

/-- Each OP value of R72 stands for one command. -/
theorem commandOfOp_eq_some {op : BitVec 4} {c : Nat} {i : Instr} :
    commandOfOp op c = some i ↔ op = opcodeOf i ∧ c = i.slot := by
  constructor
  · intro h
    unfold commandOfOp at h
    split at h <;> cases h <;> exact ⟨BitVec.eq_of_toNat_eq ‹_›, rfl⟩
  · rintro ⟨rfl, rfl⟩
    cases i <;> rfl

/-- The OP values of R75 stand for none. -/
theorem commandOfOp_eq_none {op : BitVec 4} {c : Nat} : commandOfOp op c = none ↔ op.toNat = 0 ∨ 6 ≤ op.toNat := by
  unfold commandOfOp
  split <;> grind

/-- A word with a reserved bit is no command, whatever its OP (R74). -/
theorem decode_reserved {w : Word} (h : ¬ (rsv1Field w = 0 ∧ rsv0Field w = 0)) : decode w = .error .reservedBits :=
  if_pos (not_and_or.mp h)

/-- Without a reserved bit the decoder reads the command of OP and CTX, where there is one (R72, R75). -/
theorem decode_unreserved {w : Word} (h : rsv1Field w = 0 ∧ rsv0Field w = 0) :
    decode w = (commandOfOp (opField w) (ctxField w).toNat).elim (.error (.illegalOp (opField w))) .ok := by
  rw [decode, if_neg (by simp [h])]
  cases commandOfOp (opField w) (ctxField w).toNat <;> rfl

/-- The decoder reads a command from a word exactly when the reserved fields are zero, OP is the command's and CTX its slot index
(R71 to R75). -/
theorem decode_eq_ok {w : Word} {i : Instr} :
    decode w = .ok i ↔ rsv1Field w = 0 ∧ rsv0Field w = 0 ∧ opField w = opcodeOf i ∧ (ctxField w).toNat = i.slot := by
  rw [← commandOfOp_eq_some, ← and_assoc]
  by_cases h : rsv1Field w = 0 ∧ rsv0Field w = 0
  · rw [decode_unreserved h]
    cases commandOfOp (opField w) (ctxField w).toNat <;> simp [h]
  · simp only [decode_reserved h, h, reduceCtorEq, false_and]

/-- The decoder rejects a word exactly when it has a reserved bit or its OP is 0 or 6..15 (R74, R75). -/
theorem decode_eq_error {w : Word} :
    (∃ e, decode w = .error e) ↔ w &&& 0xFFFFFFFFFFFF00F0 ≠ 0 ∨ w.toNat % 16 = 0 ∨ 6 ≤ w.toNat % 16 := by
  rw [Ne, reservedBits_eq_zero, ← opField_toNat, ← commandOfOp_eq_none (c := (ctxField w).toNat)]
  by_cases h : rsv1Field w = 0 ∧ rsv0Field w = 0
  · rw [decode_unreserved h]
    cases commandOfOp (opField w) (ctxField w).toNat <;> simp [h]
  · simp only [decode_reserved h, h, Except.error.injEq, exists_eq', not_false_eq_true, true_or]

/-- Settles O5: by `decode_eq_error` the word is no command, so its CMD write only raises ILLEGAL_CMD. -/
theorem illegalCommandWordChangesOnlyStatus : Obligations.IllegalCommandWordChangesOnlyStatus := by
  intro s a w rest hbad
  obtain ⟨e, he⟩ := decode_eq_error.mpr hbad
  exact (step_cmdWrite a w rest s).trans (execute_illegal he _)

/-- Settles O4: each word evaluates. -/
theorem sampleCommandWordsDecode : Obligations.SampleCommandWordsDecode := by
  unfold Obligations.SampleCommandWordsDecode
  decide

/-! The encoder. -/

theorem wellFormed_iff {i : Instr} : i.wellFormed = true ↔ i.slot < 256 := decide_eq_true_iff

/-- `EncodedFields` for every command. -/
theorem encodedFields : ∀ i : Instr, EncodedFields.Statement i
  | .desLoad c => EncodedFields.desLoad c
  | .tdesLoad c => EncodedFields.tdesLoad c
  | .enc c => EncodedFields.enc c
  | .dec c => EncodedFields.dec c
  | .destroy c => EncodedFields.destroy c

/-- Settles O1: the encoder fills the fields as the decoder asks for them. -/
theorem decodeOfEncodeIsTheCommand : Obligations.DecodeOfEncodeIsTheCommand := by
  intro i hwf
  obtain ⟨hop, hrsv0, hctx, hrsv1⟩ := encodedFields i hwf
  exact decode_eq_ok.mpr ⟨hrsv1, hrsv0, hop, hctx⟩

/-- Settles O2: CTX has 8 bits, so the command is well formed, and the encoder puts the word's own fields together again. -/
theorem encodeOfDecodedWordIsTheWord : Obligations.EncodeOfDecodedWordIsTheWord := by
  intro w i hd
  obtain ⟨hrsv1, hrsv0, hop, hctx⟩ := decode_eq_ok.mp hd
  have hctx' : ctxField w = BitVec.ofNat 8 i.slot := by rw [← hctx, BitVec.ofNat_toNat, BitVec.setWidth_eq]
  refine ⟨wellFormed_iff.mpr (hctx ▸ (ctxField w).isLt), ?_⟩
  calc encode i = rsv1Field w ++ ctxField w ++ rsv0Field w ++ opField w := by rw [hrsv1, hctx', hrsv0, hop]; rfl
    _ = w := word_eq_fields w

/-! The opcode table. -/

/-- The row of spec/opcode_table.json for a command: its OP value under the mask of all bits but CTX. -/
def opcodeRowOf (i : Instr) : OpcodeRow := ⟨i.mnemonic, 0#48 ++ 0#8 ++ 0#4 ++ opcodeOf i, 0xFFFFFFFFFFFF00FF⟩

/-- The mnemonics are distinct, so the table has one row with a command's mnemonic. -/
theorem mem_opcodeRows_iff {row : OpcodeRow} {i : Instr} :
    row ∈ opcodeRows ∧ i.mnemonic = row.mnemonic ↔ row = opcodeRowOf i := by
  constructor
  · rintro ⟨hrow, hi⟩
    simp only [opcodeRows, List.mem_cons, List.not_mem_nil, or_false] at hrow
    obtain rfl | rfl | rfl | rfl | rfl := hrow <;> cases i <;> simp_all [opcodeRowOf, opcodeOf, Instr.mnemonic]
  · rintro rfl
    cases i <;> simp [opcodeRows, opcodeRowOf, opcodeOf, Instr.mnemonic]

/-- Settles O3: a word matches the row of `i` exactly when its reserved fields are zero and its OP is that of `i`. -/
theorem decodeAgreesWithTheOpcodeTable : Obligations.DecodeAgreesWithTheOpcodeTable := by
  intro w i
  have hdecode : decode w = .ok i ↔ w &&& (opcodeRowOf i).mask = (opcodeRowOf i).pattern ∧ i.slot = w.toNat / 256 % 256 := by
    rw [decode_eq_ok, ctxField_toNat, opcodeRowOf, opcodeBits_eq, and_assoc, and_assoc, eq_comm (a := i.slot)]
  rw [hdecode]
  constructor
  · rintro ⟨hmask, hctx⟩
    obtain ⟨hrow, hi⟩ := mem_opcodeRows_iff.mpr (rfl : opcodeRowOf i = opcodeRowOf i)
    exact ⟨_, hrow, hmask, hi, hctx⟩
  · rintro ⟨row, hrow, hmask, hi, hctx⟩
    cases mem_opcodeRows_iff.mp ⟨hrow, hi⟩
    exact ⟨hmask, hctx⟩

/-! The host's pseudo-instructions. -/

/-- The command word as a number: OP, and CTX from bit 8 on (R71, R73). -/
theorem encode_eq_ofNat {i : Instr} (hwf : i.wellFormed = true) :
    encode i = BitVec.ofNat 64 (i.slot * 256 + (opcodeOf i).toNat) := by
  have hslot : i.slot < 256 := wellFormed_iff.mp hwf
  have hop : (opcodeOf i).toNat < 2 ^ 4 := (opcodeOf i).isLt
  have hword : (i.slot <<< 4) <<< 4 ||| (opcodeOf i).toNat = i.slot * 256 + (opcodeOf i).toNat := by
    rw [← Nat.shiftLeft_add_eq_or_of_lt hop]
    omega
  apply BitVec.eq_of_toNat_eq
  rw [encode, BitVec.toNat_append, BitVec.toNat_append, BitVec.toNat_append]
  simp [Nat.mod_eq_of_lt hslot, hword]
  omega

/-- The host's spelling of a command: one CMD write of its word (R78). -/
theorem commandOf_eq {i : Instr} (hslot : i.slot < 256) :
    commandOf i = some (.write 0x00 8 (BitVec.ofNat 64 (i.slot * 256 + (opcodeOf i).toNat))) := by
  have hwf : i.wellFormed = true := wellFormed_iff.mpr hslot
  simp [commandOf, assemble, hwf, encode_eq_ofNat hwf, writeOf, regOffset]

/-- Settles O38: `commandOf_eq` for the command among the accesses. -/
theorem pseudoInstructionsExpandAsTabled : Obligations.PseudoInstructionsExpandAsTabled := by
  intro c k k₁ k₂ k₃ b hc
  simp only [expandPseudo, commandOf_eq (i := .desLoad c) hc, commandOf_eq (i := .tdesLoad c) hc,
    commandOf_eq (i := .enc c) hc, commandOf_eq (i := .dec c) hc, commandOf_eq (i := .destroy c) hc]
  exact ⟨rfl, rfl, rfl, rfl, rfl, rfl⟩

end Sys2Proof.Proofs
end

section
/-! The key schedule: its rotations are cumulative (R104, R106), it reads no bit of the key but those PC-1 names (R101, R108), and
key material of equal bits gives subkeys of that bit (R109). -/

namespace Sys2Proof.Proofs

open Sys2Proof.Machine

/-! The rotation of R12 as the library's. -/

theorem rotl28_eq_rotateLeft {a : Nat} (ha : a < 28) (x : KeyHalf) : rotl28 x a = x.rotateLeft a := by
  rw [rotl28, BitVec.rotateLeft_def, Nat.mod_eq_of_lt ha]

/-- Rotating left by `r` moves to place `i` the bit `r` places below it, around the turn. -/
theorem getElem_rotateLeft_keyHalf (x : KeyHalf) (r : Nat) {i : Nat} (hi : i < 28) :
    (x.rotateLeft r)[i] = x[(i + 28 - r % 28) % 28] := by
  rw [BitVec.getElem_rotateLeft]
  split <;> congr 1 <;> omega

theorem rotateLeft_rotateLeft (x : KeyHalf) (a b : Nat) : (x.rotateLeft a).rotateLeft b = x.rotateLeft (a + b) := by
  ext i hi
  rw [getElem_rotateLeft_keyHalf, getElem_rotateLeft_keyHalf, getElem_rotateLeft_keyHalf]
  congr 1
  omega

/-- A whole turn: the amounts of the sixteen rounds add up to 28 (R103, R104). -/
theorem rotateLeft_shift_sum (x : KeyHalf) : x.rotateLeft shift.sum = x := by
  have hturn : shift.sum % 28 = 0 := by decide
  ext i hi
  rw [getElem_rotateLeft_keyHalf]
  congr 1
  omega

/-- The loop of R107 makes its subkey `n` from the halves it began with, rotated by the sum of the amounts up to `n`. -/
theorem subkeysFrom_getElem {amounts : List Nat} (hlt : ∀ a ∈ amounts, a < 28) (c d : KeyHalf) (n : Nat)
    (h : n < (subkeysFrom amounts c d).length) :
    (subkeysFrom amounts c d)[n] =
      subkeyOf (c.rotateLeft (amounts.take (n + 1)).sum) (d.rotateLeft (amounts.take (n + 1)).sum) := by
  induction amounts generalizing c d n with
  | nil => simp [subkeysFrom] at h
  | cons a rest ih =>
    obtain ⟨ha, hrest⟩ := List.forall_mem_cons.mp hlt
    simp only [subkeysFrom, rotl28_eq_rotateLeft ha]
    cases n with
    | zero => simp
    | succ n => simp [ih hrest, rotateLeft_rotateLeft]

/-- Subkey `n + 1` from the halves of R102. -/
theorem keySchedule_getElem (key : Word) (n : Nat) (h : n < 16) :
    (keySchedule key)[n] =
      subkeyOf ((initialC key).rotateLeft (shift.take (n + 1)).sum) ((initialD key).rotateLeft (shift.take (n + 1)).sum) :=
  subkeysFrom_getElem shift_range (initialC key) (initialD key) n (by rwa [subkeysFrom_length])

/-- Settles O44: `keySchedule_getElem` with R102 and R106 written out, and `rotateLeft_shift_sum`. -/
theorem subkeysComeFromCumulativeRotations : Obligations.SubkeysComeFromCumulativeRotations :=
  ⟨keySchedule_getElem, rotateLeft_shift_sum⟩

/-! The bits of the key that the schedule reads. -/

/-- A permutation reads only the bits its table names (R11). -/
theorem permute_congr {m n : Nat} {table : List Nat} {v v' : BitVec n}
    (h : ∀ t ∈ table, v.getLsbD (n - t) = v'.getLsbD (n - t)) : permute m table v = permute m table v' :=
  List.foldl_ext _ _ _ fun r t ht => by rw [h t ht]

/-- The key reaches the schedule through PC-1 alone (R101). -/
theorem keySchedule_congr {k k' : Word} (h : ∀ t ∈ pc1, k.getLsbD (64 - t) = k'.getLsbD (64 - t)) :
    keySchedule k = keySchedule k' := by
  have hperm : permutedKey k = permutedKey k' := permute_congr h
  have hc : initialC k = initialC k' := congrArg (·.extractLsb' 28 28) hperm
  have hd : initialD k = initialD k' := congrArg (·.extractLsb' 0 28) hperm
  ext1 n hn
  rw [keySchedule_getElem k n hn, keySchedule_getElem k' n hn, hc, hd]

/-- The mask of the 56 bits of key material: all but the least significant bit of each byte (R108). -/
def keyMaterial : Word := 0xFEFEFEFEFEFEFEFE

theorem pc1_names_keyMaterial : ∀ t ∈ pc1, keyMaterial.getLsbD (64 - t) = true := by decide

/-- PC-1 drops the parity bits (R101, R108). -/
theorem and_keyMaterial_getLsbD (k : Word) {t : Nat} (ht : t ∈ pc1) :
    (k &&& keyMaterial).getLsbD (64 - t) = k.getLsbD (64 - t) := by
  rw [BitVec.getLsbD_and, pc1_names_keyMaterial t ht, Bool.and_true]

/-- Flipping bits outside a mask leaves the bits under it. -/
theorem xor_and_of_and_eq_zero {k p m : Word} (h : p &&& m = 0) : (k ^^^ p) &&& m = k &&& m := by
  ext i hi
  have hbit : (p[i] && m[i]) = false := by simpa using congrArg (·[i]) h
  rw [BitVec.getElem_and, BitVec.getElem_xor, BitVec.getElem_and, Bool.and_xor_distrib_right, hbit, Bool.xor_false]

/-- Flipping parity bits changes no subkey (R108). -/
theorem keySchedule_xor_parity (k : Word) {p : Word} (hp : p &&& keyMaterial = 0) :
    keySchedule (k ^^^ p) = keySchedule k :=
  keySchedule_congr fun t ht => by
    rw [← and_keyMaterial_getLsbD (k ^^^ p) ht, xor_and_of_and_eq_zero hp, and_keyMaterial_getLsbD k ht]

/-! Keys whose key material is constant. -/

/-- A permutation of equal bits. -/
theorem permute_constant {m n : Nat} {table : List Nat} {v : BitVec n} {b : Bool} (hm : table.length = m)
    (h : ∀ t ∈ table, v.getLsbD (n - t) = b) : permute m table v = BitVec.fill m b := by
  ext i hi
  rw [← BitVec.getLsbD_eq_getElem, permute_getLsbD table v hm i hi, h _ (List.getElem_mem _), BitVec.getElem_fill]

theorem rotateLeft_fill (b : Bool) (r : Nat) : (BitVec.fill 28 b).rotateLeft r = BitVec.fill 28 b := by
  ext i hi
  rw [getElem_rotateLeft_keyHalf, BitVec.getElem_fill, BitVec.getElem_fill]

theorem fill_append_fill (m n : Nat) (b : Bool) : BitVec.fill m b ++ BitVec.fill n b = BitVec.fill (m + n) b := by
  ext i hi
  rw [BitVec.getElem_append]
  split <;> simp only [BitVec.getElem_fill]

theorem extractLsb'_fill {start len w : Nat} (h : start + len ≤ w) (b : Bool) :
    (BitVec.fill w b).extractLsb' start len = BitVec.fill len b := by
  ext i hi
  rw [BitVec.getElem_extractLsb', BitVec.getLsbD_eq_getElem (by omega), BitVec.getElem_fill, BitVec.getElem_fill]

theorem subkeyOf_fill (b : Bool) : subkeyOf (BitVec.fill 28 b) (BitVec.fill 28 b) = BitVec.fill 48 b := by
  rw [subkeyOf, fill_append_fill]
  refine permute_constant pc2_length fun t ht => ?_
  have hin : 56 - t < 56 := Nat.sub_lt_of_pos_le (pc2_range t ht).1 (pc2_range t ht).2
  rw [BitVec.getLsbD_eq_getElem hin, BitVec.getElem_fill]

/-- Where the bits that PC-1 names are equal, so are those of both halves, which no rotation then changes, and those of each
subkey (R109). -/
theorem keySchedule_constant {k : Word} {b : Bool} (h : ∀ t ∈ pc1, k.getLsbD (64 - t) = b) :
    keySchedule k = Vector.replicate 16 (BitVec.fill 48 b) := by
  have hperm : permutedKey k = BitVec.fill 56 b := permute_constant pc1_length h
  have hc : initialC k = BitVec.fill 28 b := by
    rw [initialC, hperm, extractLsb'_fill (by decide)]
  have hd : initialD k = BitVec.fill 28 b := by
    rw [initialD, hperm, extractLsb'_fill (by decide)]
  ext1 n hn
  rw [keySchedule_getElem k n hn, hc, hd, rotateLeft_fill, subkeyOf_fill, Vector.getElem_replicate]

/-- Settles O46: `keySchedule_constant`, as the bits PC-1 names are those of the key material. -/
theorem extremeKeysGiveConstantSchedules : Obligations.ExtremeKeysGiveConstantSchedules := by
  refine fun k => ⟨fun hzeros => ?_, fun hones => ?_⟩
  · refine keySchedule_constant (b := false) fun t ht => ?_
    rw [← and_keyMaterial_getLsbD k ht, keyMaterial, hzeros, BitVec.ofNat_eq_ofNat, BitVec.getLsbD_zero]
  · refine keySchedule_constant (b := true) fun t ht => ?_
    rw [← and_keyMaterial_getLsbD k ht, keyMaterial, hones]
    exact pc1_names_keyMaterial t ht

end Sys2Proof.Proofs
end

section
/-! What the load commands build, and that parity bits of the staged keys reach no schedule (R108, R110, R163). -/

namespace Sys2Proof.Proofs

open Sys2Proof.Machine

/-- The command word of R71 as a number decodes to its command. -/
theorem decode_ofNat {i : Instr} (hslot : i.slot < 256) :
    decode (BitVec.ofNat 64 (i.slot * 256 + (opcodeOf i).toNat)) = .ok i := by
  have hwf : i.wellFormed = true := wellFormed_iff.mpr hslot
  rw [← encode_eq_ofNat hwf, decodeOfEncodeIsTheCommand i hwf]

/-- Settles O7: `decode_ofNat` for its word, and one case of `exec` for each state of the slot. -/
theorem desLoadConstructsADesInstance : Obligations.DesLoadConstructsADesInstance := by
  intro s c
  exact ⟨fun hc => decode_ofNat (i := .desLoad c) hc,
    fun sl hs hv => exec_rightSlot (i := .desLoad c) hs hv,
    fun sl hs hv => exec_wrongSlot (i := .desLoad c) hs hv,
    fun hc => exec_badCtx (i := .desLoad c) hc⟩

/-- The slot a load builds from the staged keys: DES for `des.load` (R110), else Triple-DES (R163). -/
def loadedSlot (i : Instr) (keys : Vector Word 3) : Slot :=
  match i with
  | .desLoad _ => desInstance keys[0]
  | _ => tdesInstance keys

/-- A load into a slot that is not valid succeeds, and the slot holds what the load builds. -/
theorem exec_load_builds {i : Instr} {s : State} {sl : Slot} (hload : isLoad i = true) (hs : s.ctx[i.slot]? = some sl)
    (hv : sl.valid = false) :
    ∃ t, exec i s = .next t ∧ t.errcode = .ok ∧ t.ctx[i.slot]? = some (loadedSlot i s.keyStage) := by
  obtain ⟨hin, -⟩ := List.getElem?_eq_some_iff.mp hs
  refine ⟨_, exec_rightSlot hs (by simp [hv, hload]), rfl, ?_⟩
  cases i with
  | desLoad c | tdesLoad c => exact List.getElem?_set_self hin
  | enc c | dec c | destroy c => cases hload

/-- The three staged keys with the bits of a mask flipped in each. -/
def flipKeys (keys : Vector Word 3) (p₁ p₂ p₃ : Word) : Vector Word 3 := #v[keys[0] ^^^ p₁, keys[1] ^^^ p₂, keys[2] ^^^ p₃]

/-- Flipping parity bits of the staged keys changes no schedule that a load builds (R108). -/
theorem loadedSlot_flipKeys (i : Instr) (keys : Vector Word 3) {p₁ p₂ p₃ : Word} (hp₁ : p₁ &&& keyMaterial = 0)
    (hp₂ : p₂ &&& keyMaterial = 0) (hp₃ : p₃ &&& keyMaterial = 0) :
    (loadedSlot i (flipKeys keys p₁ p₂ p₃)).kind = (loadedSlot i keys).kind ∧
      (loadedSlot i (flipKeys keys p₁ p₂ p₃)).ks = (loadedSlot i keys).ks := by
  have hdes : (desInstance (keys[0] ^^^ p₁)).ks = (desInstance keys[0]).ks := by
    rw [desInstance_ks, desInstance_ks, keySchedule_xor_parity _ hp₁]
  have htdes : (tdesInstance (flipKeys keys p₁ p₂ p₃)).ks = (tdesInstance keys).ks := by
    ext1 j hj
    rw [(tdesInstance_engine _ hj).2, (tdesInstance_engine keys hj).2]
    match j, hj with
    | 0, _ => exact keySchedule_xor_parity keys[0] hp₁
    | 1, _ => exact keySchedule_xor_parity keys[1] hp₂
    | 2, _ => exact keySchedule_xor_parity keys[2] hp₃
  cases i with
  | desLoad c => exact ⟨rfl, hdes⟩
  | tdesLoad c | enc c | dec c | destroy c => exact ⟨rfl, htdes⟩

/-- Settles O45: `keySchedule_xor_parity` for the schedules; both loads succeed by `exec_load_builds`, and `loadedSlot_flipKeys`
compares what they build. -/
theorem parityBitsAreIgnored : Obligations.ParityBitsAreIgnored := by
  refine ⟨fun k p hp => keySchedule_xor_parity k hp, fun s c sl i p₁ p₂ p₃ hs hv hi hparity => ?_⟩
  obtain ⟨hload, rfl⟩ : isLoad i = true ∧ c = i.slot := by
    obtain rfl | rfl := hi <;> exact ⟨rfl, rfl⟩
  obtain ⟨t, ht, htok, htslot⟩ := exec_load_builds hload hs hv
  obtain ⟨u, hu, huok, huslot⟩ :=
    exec_load_builds (s := { s with keyStage := flipKeys s.keyStage p₁ p₂ p₃ }) hload hs hv
  obtain ⟨hkind, hks⟩ := loadedSlot_flipKeys i s.keyStage (hparity p₁ (by simp)) (hparity p₂ (by simp)) (hparity p₃ (by simp))
  exact ⟨t, u, _, _, ht, htok, htslot, hu, huok, huslot, hkind, hks⟩

end Sys2Proof.Proofs
end

section
/-! FP and IP undo each other (R131, R149). -/

namespace Sys2Proof.Proofs

open Sys2Proof.Machine

/-- Values with the same FIPS bits 1..n (R10) are equal. -/
theorem eq_of_fbit_eq {n : Nat} {v w : BitVec n} (h : ∀ j < n, fbit v (j + 1) = fbit w (j + 1)) : v = w := by
  refine BitVec.eq_of_getLsbD_eq fun i hi => ?_
  have hplace : n - (n - 1 - i + 1) = i := by omega
  have hbit := h (n - 1 - i) (by omega)
  rwa [fbit, fbit, hplace] at hbit

/-- `inv` lists for each bit of a table's input the place, counted from 1, where the table has it. -/
def InverseTable (table inv : List Nat) : Prop :=
  ∀ (j : Nat) (h : j < inv.length), 1 ≤ inv[j] ∧ table[inv[j] - 1]? = some (j + 1)

theorem permute_permute_of_inverseTable {n : Nat} {table inv : List Nat} (htable : table.length = n) (hinv : inv.length = n)
    (h : InverseTable table inv) (v : BitVec n) : permute n inv (permute n table v) = v := by
  refine eq_of_fbit_eq fun j hj => ?_
  obtain ⟨hpos, hentry⟩ := h j (by omega)
  obtain ⟨hplace, hnames⟩ := List.getElem?_eq_some_iff.mp hentry
  calc fbit (permute n inv (permute n table v)) (j + 1)
      = fbit (permute n table v) inv[j] := fbit_permute inv _ hinv j (by omega)
    _ = fbit (permute n table v) (inv[j] - 1 + 1) := by rw [Nat.sub_add_cancel hpos]
    _ = fbit v table[inv[j] - 1] := fbit_permute table v htable _ hplace
    _ = fbit v (j + 1) := by rw [hnames]

theorem fp_inverseTable_ip : InverseTable ip fp := by unfold InverseTable; decide

theorem ip_inverseTable_fp : InverseTable fp ip := by unfold InverseTable; decide

theorem permute_fp_permute_ip (v : Word) : permute 64 fp (permute 64 ip v) = v :=
  permute_permute_of_inverseTable ip_length fp_length fp_inverseTable_ip v

theorem permute_ip_permute_fp (v : Word) : permute 64 ip (permute 64 fp v) = v :=
  permute_permute_of_inverseTable fp_length ip_length ip_inverseTable_fp v

/-- Settles O48: each table is the other's inverse. -/
theorem finalPermutationIsTheInverseOfTheInitial : Obligations.FinalPermutationIsTheInverseOfTheInitial :=
  fun v => ⟨permute_fp_permute_ip v, permute_ip_permute_fp v⟩

end Sys2Proof.Proofs
end

section
/-! The S-boxes: their rows are permutations of 0..15 (R145), and `substitute` puts box i's output in the i-th four bits
(R135, R136, R147). -/

namespace Sys2Proof.Proofs

open Sys2Proof.Machine

/-- The sixteen entries of a row are 0..15 in some order (R145). -/
theorem sbox_row_perm : ∀ table ∈ sboxes, ∀ row < 4, ((table.drop (16 * row)).take 16).Perm (List.range 16) := by
  decide

theorem sbox_length : ∀ table ∈ sboxes, table.length = 64 := by decide

/-- Settles O47: a permutation of 0..15 holds each of them as often as 0..15 does, once. -/
theorem sboxRowsArePermutations : Obligations.SboxRowsArePermutations := by
  refine ⟨sboxes_length, fun table htable => ⟨sbox_length table htable, fun row hrow v hv => ?_⟩⟩
  rw [(sbox_row_perm table htable row hrow).count_eq]
  exact List.count_eq_one_of_mem List.nodup_range (List.mem_range.mpr hv)

/-- The fold of `substitute` over a list of outputs: each is put below those before it. -/
def packNibbles (outputs : List (BitVec 4)) : Half := outputs.foldl (fun y b => (y <<< 4) ||| b.setWidth 32) 0#32

theorem packNibbles_concat (outputs : List (BitVec 4)) (b : BitVec 4) :
    packNibbles (outputs ++ [b]) = (packNibbles outputs <<< 4) ||| b.setWidth 32 := by
  simp [packNibbles]

/-- Putting four bits in at the low end leaves them there. -/
theorem extractLsb'_pushNibble_zero (y : Half) (b : BitVec 4) : ((y <<< 4) ||| b.setWidth 32).extractLsb' 0 4 = b := by
  ext i hi
  simp [show i < 32 by omega, hi]

/-- Putting four bits in at the low end moves the others up by four. -/
theorem extractLsb'_pushNibble_add (y : Half) (b : BitVec 4) {p : Nat} (hp : p + 4 + 4 ≤ 32) :
    ((y <<< 4) ||| b.setWidth 32).extractLsb' (p + 4) 4 = y.extractLsb' p 4 := by
  ext i hi
  have hplace : p + 4 + i = p + i + 4 := by omega
  simp [hplace, show p + i + 4 < 32 by omega, BitVec.getLsbD_eq_getElem (show p + i < 32 by omega)]

/-- Of at most eight outputs, output `i` is where counting from the last places it. -/
theorem packNibbles_extractLsb' (outputs : List (BitVec 4)) (hlen : outputs.length ≤ 8) (i : Nat) (hi : i < outputs.length) :
    (packNibbles outputs).extractLsb' (4 * (outputs.length - 1 - i)) 4 = outputs[i] := by
  induction outputs using List.reverseRecOn with
  | nil => simp at hi
  | append_singleton front b ih =>
    rw [List.length_append, List.length_singleton] at hlen hi
    rw [packNibbles_concat]
    by_cases hlast : i = front.length
    · subst hlast
      simpa using extractLsb'_pushNibble_zero (packNibbles front) b
    · have hfront : i < front.length := by omega
      have hplace : 4 * ((front ++ [b]).length - 1 - i) = 4 * (front.length - 1 - i) + 4 := by
        rw [List.length_append, List.length_singleton]; omega
      rw [hplace, extractLsb'_pushNibble_add _ _ (by omega), ih (by omega) hfront, List.getElem_append_left hfront]

/-- The outputs of S1..S8 in order (R135, R145). -/
def sboxOutputs (x : Subkey) : List (BitVec 4) := sboxes.zipIdx.map fun t => sboxLookup t.1 (sixBitGroup x t.2)

theorem sboxOutputs_length (x : Subkey) : (sboxOutputs x).length = 8 := rfl

theorem sboxOutputs_getElem (x : Subkey) (i : Nat) (h : i < sboxes.length) :
    (sboxOutputs x)[i]'(by rwa [sboxOutputs_length, ← sboxes_length]) = sboxLookup sboxes[i] (sixBitGroup x i) := by
  simp [sboxOutputs]

theorem substitute_eq_packNibbles (x : Subkey) : substitute x = packNibbles (sboxOutputs x) := by
  rw [substitute, packNibbles, sboxOutputs, List.foldl_map]

/-- The i-th four bits of Y, counted from the most significant, are box i's (R145, R147). -/
theorem substitute_extractLsb' (x : Subkey) (i : Nat) (h : i < sboxes.length) :
    (substitute x).extractLsb' (28 - 4 * i) 4 = sboxLookup sboxes[i] (sixBitGroup x i) := by
  have hlen : (sboxOutputs x).length = 8 := sboxOutputs_length x
  have hi : i < (sboxOutputs x).length := by rwa [hlen, ← sboxes_length]
  have hplace : 28 - 4 * i = 4 * ((sboxOutputs x).length - 1 - i) := by omega
  rw [substitute_eq_packNibbles, hplace, packNibbles_extractLsb' _ hlen.le i hi, sboxOutputs_getElem x i h]

/-- The row of R136 as a number: the outer bits of the group. -/
theorem sboxRow_eq (b : BitVec 6) : sboxRow b = b.toNat / 32 * 2 + b.toNat % 2 := by
  have hhigh : (b.getLsbD 5).toNat = b.toNat / 32 := by
    rw [BitVec.getLsbD, Nat.toNat_testBit]; omega
  have hlow : (b.getLsbD 0).toNat = b.toNat % 2 := by
    rw [BitVec.getLsbD, Nat.toNat_testBit, Nat.pow_zero, Nat.div_one]
  rw [sboxRow, hhigh, hlow, Nat.mul_comm]

/-- The column of R136 as a number: the four middle bits of the group. -/
theorem sboxCol_eq (b : BitVec 6) : sboxCol b = b.toNat / 2 % 16 := by
  rw [sboxCol, BitVec.extractLsb'_toNat, Nat.shiftRight_eq_div_pow]

theorem sboxLookup_eq (table : List Nat) (b : BitVec 6) :
    sboxLookup table b = BitVec.ofNat 4 (table[16 * (b.toNat / 32 * 2 + b.toNat % 2) + b.toNat / 2 % 16]!) := by
  rw [sboxLookup, sboxRow_eq, sboxCol_eq, List.getD_eq_getElem?_getD, List.getElem!_eq_getElem?_getD]
  rfl

/-- Settles O49: the value under P is `substitute`, whose four bits are the lookups, with row and column as numbers. -/
theorem roundFunctionLooksUpTheSixBitGroups : Obligations.RoundFunctionLooksUpTheSixBitGroups := by
  refine ⟨fun l r k => rfl, fun r k => ⟨substitute (expand r ^^^ k), rfl, fun i h => ⟨_, rfl, ?_⟩⟩⟩
  exact (substitute_extractLsb' _ i h).trans (sboxLookup_eq _ _)

end Sys2Proof.Proofs
end

section
/-! The Feistel network run backwards: the same rounds with the keys in reverse order undo it (R148 to R152). -/

namespace Sys2Proof.Proofs

open Sys2Proof.Machine

/-- With its halves swapped, a round undoes itself: the half it left alone gives the same f. -/
theorem feistelRound_swap_feistelRound (lr : Half × Half) (k : Subkey) :
    feistelRound (feistelRound lr k).swap k = lr.swap := by
  obtain ⟨l, r⟩ := lr
  simp [feistelRound]

/-- With the halves swapped, the rounds in reverse order undo the rounds. -/
theorem rounds_reverse_undo (keys : List Subkey) (lr : Half × Half) :
    keys.reverse.foldl feistelRound (keys.foldl feistelRound lr).swap = lr.swap := by
  induction keys generalizing lr with
  | nil => rfl
  | cons k rest ih =>
    rw [List.foldl_cons, List.reverse_cons, List.foldl_append, ih, List.foldl_cons, List.foldl_nil,
      feistelRound_swap_feistelRound]

/-- IP of a finished block is the last halves, swapped (R149). -/
theorem initialHalves_finalBlock (lr : Half × Half) : initialHalves (finalBlock lr) = lr.swap := by
  rw [initialHalves, finalBlock, permute_ip_permute_fp, BitVec.extractLsb'_append_eq_left,
    BitVec.extractLsb'_append_eq_right, Prod.swap]

theorem finalBlock_swap_initialHalves (b : Word) : finalBlock (initialHalves b).swap = b := by
  have hhalves : (permute 64 ip b).extractLsb' 32 32 ++ (permute 64 ip b).extractLsb' 0 32 = permute 64 ip b :=
    BitVec.extractLsb'_append_extractLsb'
  rw [initialHalves, finalBlock, Prod.fst_swap, Prod.snd_swap, hhalves, permute_fp_permute_ip]

/-- Crypting twice with the round keys in opposite orders gives the block back. -/
theorem desCrypt_desCrypt_of_reverse {ks ks' : Schedule} {dir dir' : Direction}
    (h : roundKeys ks' dir' = (roundKeys ks dir).reverse) (b : Word) : desCrypt ks' (desCrypt ks b dir) dir' = b := by
  rw [desCrypt, desCrypt, initialHalves_finalBlock, h, rounds_reverse_undo, finalBlock_swap_initialHalves]

theorem roundKeys_encrypt_eq_reverse (ks : Schedule) : roundKeys ks .encrypt = (roundKeys ks .decrypt).reverse :=
  (List.reverse_reverse _).symm

/-- Settles O50: either direction uses the round keys of the other in reverse order. -/
theorem desDecryptInvertsDesEncrypt : Obligations.DesDecryptInvertsDesEncrypt :=
  fun ks b => ⟨desCrypt_desCrypt_of_reverse rfl b, desCrypt_desCrypt_of_reverse (roundKeys_encrypt_eq_reverse ks) b⟩

/-- Settles O52: sixteen equal subkeys are the same list in either order. -/
theorem equalSubkeysMakeDecryptionEncryption : Obligations.EqualSubkeysMakeDecryptionEncryption := by
  intro ks k hequal b
  obtain rfl : ks = Vector.replicate 16 k := by
    ext1 i hi
    rw [hequal i hi, Vector.getElem_replicate]
  have hkeys : roundKeys (Vector.replicate 16 k) .decrypt = roundKeys (Vector.replicate 16 k) .encrypt := by
    simp [roundKeys]
  rw [desDecrypt, desEncrypt, desCrypt, desCrypt, hkeys]

end Sys2Proof.Proofs
end

section
/-! The complementation property (95_test_vectors.md V11): complementing the key complements every subkey, E complements with R, so
f stays and each round complements its halves. -/

namespace Sys2Proof.Proofs

open Sys2Proof.Machine

/-- A permutation moves bits, so it complements with its input, where every entry names a bit of it (R11). -/
theorem permute_not {m n : Nat} {table : List Nat} (hm : table.length = m) (hrange : ∀ t ∈ table, 1 ≤ t ∧ t ≤ n)
    (v : BitVec n) : permute m table (~~~v) = ~~~(permute m table v) := by
  refine BitVec.eq_of_getLsbD_eq fun i hi => ?_
  have hmem : table[m - 1 - i] ∈ table := List.getElem_mem _
  have hin : n - table[m - 1 - i] < n := Nat.sub_lt_of_pos_le (hrange _ hmem).1 (hrange _ hmem).2
  rw [permute_getLsbD table _ hm i hi, BitVec.getLsbD_not, BitVec.getLsbD_not, permute_getLsbD table v hm i hi]
  simp [hin, hi]

theorem extractLsb'_not {w start len : Nat} (h : start + len ≤ w) (x : BitVec w) :
    (~~~x).extractLsb' start len = ~~~(x.extractLsb' start len) := by
  ext i hi
  simp [show start + i < w by omega]

theorem rotateLeft_not (x : KeyHalf) (r : Nat) : (~~~x).rotateLeft r = ~~~(x.rotateLeft r) := by
  ext i hi
  rw [getElem_rotateLeft_keyHalf, BitVec.getElem_not, BitVec.getElem_not, getElem_rotateLeft_keyHalf]

theorem permutedKey_not (k : Word) : permutedKey (~~~k) = ~~~(permutedKey k) := permute_not pc1_length pc1_range k

theorem initialC_not (k : Word) : initialC (~~~k) = ~~~(initialC k) := by
  rw [initialC, permutedKey_not, extractLsb'_not (by decide), initialC]

theorem initialD_not (k : Word) : initialD (~~~k) = ~~~(initialD k) := by
  rw [initialD, permutedKey_not, extractLsb'_not (by decide), initialD]

theorem subkeyOf_not (c d : KeyHalf) : subkeyOf (~~~c) (~~~d) = ~~~(subkeyOf c d) := by
  rw [subkeyOf, ← BitVec.not_append, permute_not pc2_length pc2_range, subkeyOf]

/-- Complementing the key complements each subkey (R101 to R106). -/
theorem keySchedule_not (k : Word) : keySchedule (~~~k) = (keySchedule k).map (~~~·) := by
  ext1 n hn
  rw [keySchedule_getElem _ n hn, initialC_not, initialD_not, rotateLeft_not, rotateLeft_not, subkeyOf_not,
    Vector.getElem_map, keySchedule_getElem k n hn]

theorem roundKeys_map (f : Subkey → Subkey) (ks : Schedule) (dir : Direction) :
    roundKeys (ks.map f) dir = (roundKeys ks dir).map f := by
  cases dir with
  | encrypt => exact Vector.toList_map
  | decrypt => rw [roundKeys, roundKeys, Vector.toList_map, List.map_reverse]

/-- The complement of both halves. -/
def notHalves (lr : Half × Half) : Half × Half := (~~~lr.1, ~~~lr.2)

/-- The complements of E(R) and of the subkey cancel in their XOR (R147). -/
theorem roundF_not (r : Half) (k : Subkey) : roundF (~~~r) (~~~k) = roundF r k := by
  have hcancel : expand (~~~r) ^^^ ~~~k = expand r ^^^ k := by
    rw [expand, permute_not expansion_length expansion_range, ← BitVec.not_xor_left, ← BitVec.not_xor_right,
      BitVec.not_not, expand]
  rw [roundF, hcancel, roundF]

theorem feistelRound_not (lr : Half × Half) (k : Subkey) :
    feistelRound (notHalves lr) (~~~k) = notHalves (feistelRound lr k) := by
  rw [feistelRound, notHalves, roundF_not, ← BitVec.not_xor_left, feistelRound, notHalves]

theorem rounds_not (keys : List Subkey) (lr : Half × Half) :
    (keys.map (~~~·)).foldl feistelRound (notHalves lr) = notHalves (keys.foldl feistelRound lr) := by
  rw [List.foldl_map]
  exact List.foldl_hom notHalves feistelRound_not

theorem initialHalves_not (b : Word) : initialHalves (~~~b) = notHalves (initialHalves b) := by
  rw [initialHalves, permute_not ip_length ip_range, extractLsb'_not (by decide), extractLsb'_not (by decide),
    initialHalves, notHalves]

theorem finalBlock_not (lr : Half × Half) : finalBlock (notHalves lr) = ~~~(finalBlock lr) := by
  rw [finalBlock, notHalves, ← BitVec.not_append, permute_not fp_length fp_range, finalBlock]

theorem desCrypt_not (k b : Word) (dir : Direction) :
    desCrypt (keySchedule (~~~k)) (~~~b) dir = ~~~(desCrypt (keySchedule k) b dir) := by
  rw [desCrypt, keySchedule_not, roundKeys_map, initialHalves_not, rounds_not, finalBlock_not, desCrypt]

/-- Settles O51: `desCrypt_not` in either direction. -/
theorem complementedKeyAndBlockComplementTheResult : Obligations.ComplementedKeyAndBlockComplementTheResult :=
  fun k b => ⟨desCrypt_not k b .encrypt, desCrypt_not k b .decrypt⟩

end Sys2Proof.Proofs
end

section
/-! What `tdes.load` builds, and the laws of the EDE composer, which follow from those of single DES (R160 to R168). -/

namespace Sys2Proof.Proofs

open Sys2Proof.Machine

/-- The instance of `tdes.load` with its three keys and schedules written out (R160, R164). -/
theorem tdesInstance_eq (keys : Vector Word 3) :
    tdesInstance keys =
      { valid := true
        kind := .tdes
        key := #v[keys[0], keys[1], keys[2]]
        ks := #v[keySchedule keys[0], keySchedule keys[1], keySchedule keys[2]] } := by
  have hks : keys.map keySchedule = #v[keySchedule keys[0], keySchedule keys[1], keySchedule keys[2]] := by
    ext1 j hj
    rw [Vector.getElem_map]
    match j, hj with
    | 0, _ | 1, _ | 2, _ => rfl
  rw [tdesInstance, hks, ← keys_eta keys]

/-- Settles O8: `decode_ofNat` for its word, one case of `exec` for each state of the slot, and `tdesInstance_eq` for what it
builds. -/
theorem tdesLoadConstructsATdesInstance : Obligations.TdesLoadConstructsATdesInstance := by
  intro s c
  refine ⟨fun hc => decode_ofNat (i := .tdesLoad c) hc, fun sl hs hv => ?_,
    fun sl hs hv => exec_wrongSlot (i := .tdesLoad c) hs hv,
    fun hc => exec_badCtx (i := .tdesLoad c) hc⟩
  rw [← tdesInstance_eq]
  exact exec_rightSlot (i := .tdesLoad c) hs hv

theorem desDecrypt_desEncrypt (ks : Schedule) (b : Word) : desDecrypt ks (desEncrypt ks b) = b :=
  (desDecryptInvertsDesEncrypt ks b).1

theorem desEncrypt_desDecrypt (ks : Schedule) (b : Word) : desEncrypt ks (desDecrypt ks b) = b :=
  (desDecryptInvertsDesEncrypt ks b).2

/-- Settles O53: the three stages undo each other from the inside out (R167). -/
theorem tdesDecryptInvertsTdesEncrypt : Obligations.TdesDecryptInvertsTdesEncrypt := by
  intro ks₀ ks₁ ks₂ b
  constructor
  · rw [tdesDecrypt, tdesEncrypt, desDecrypt_desEncrypt ks₂, desEncrypt_desDecrypt ks₁, desDecrypt_desEncrypt ks₀]
  · rw [tdesDecrypt, tdesEncrypt, desEncrypt_desDecrypt ks₀, desDecrypt_desEncrypt ks₁, desEncrypt_desDecrypt ks₂]

/-- Equal first and second schedules: the decryption stage undoes the first (R168). -/
theorem tdesEncrypt_first_eq_second (ks ks' : Schedule) (b : Word) : tdesEncrypt ks ks ks' b = desEncrypt ks' b := by
  rw [tdesEncrypt, desDecrypt_desEncrypt]

/-- Equal second and third schedules: the last stage undoes the decryption stage (R168). -/
theorem tdesEncrypt_second_eq_third (ks' ks : Schedule) (b : Word) : tdesEncrypt ks' ks ks b = desEncrypt ks' b := by
  rw [tdesEncrypt, desEncrypt_desDecrypt]

/-- Equal second and third schedules: the encryption stage undoes the first decryption (R162). -/
theorem tdesDecrypt_second_eq_third (ks' ks : Schedule) (b : Word) : tdesDecrypt ks' ks ks b = desDecrypt ks' b := by
  rw [tdesDecrypt, desEncrypt_desDecrypt]

/-- Settles O54: three equal keys are a case of two equal neighbours (R166). -/
theorem tdesWithEqualKeysIsDes : Obligations.TdesWithEqualKeysIsDes :=
  fun k b => ⟨tdesEncrypt_first_eq_second (keySchedule k) (keySchedule k) b,
    tdesDecrypt_second_eq_third (keySchedule k) (keySchedule k) b⟩

/-- Settles O55: two equal neighbours cancel, whichever end they stand at (R168). -/
theorem tdesWithTwoEqualNeighboursIsDes : Obligations.TdesWithTwoEqualNeighboursIsDes :=
  fun k k' b => ⟨tdesEncrypt_first_eq_second (keySchedule k) (keySchedule k') b,
    tdesEncrypt_second_eq_third (keySchedule k') (keySchedule k) b⟩

end Sys2Proof.Proofs
end

section
/-! What `enc`, `dec` and `destroy` do in each state of their slot, and that `enc` and `dec` undo each other (R152, R161, R162, R167,
R181 to R183). -/

namespace Sys2Proof.Proofs

open Sys2Proof.Machine

theorem encryptWith_des {sl : Slot} (hkind : sl.kind = .des) (b : Word) : encryptWith sl b = desEncrypt sl.ks[0] b := by
  rw [encryptWith, hkind]

theorem encryptWith_tdes {sl : Slot} (hkind : sl.kind = .tdes) (b : Word) :
    encryptWith sl b = tdesEncrypt sl.ks[0] sl.ks[1] sl.ks[2] b := by
  rw [encryptWith, hkind]

theorem decryptWith_des {sl : Slot} (hkind : sl.kind = .des) (b : Word) : decryptWith sl b = desDecrypt sl.ks[0] b := by
  rw [decryptWith, hkind]

theorem decryptWith_tdes {sl : Slot} (hkind : sl.kind = .tdes) (b : Word) :
    decryptWith sl b = tdesDecrypt sl.ks[0] sl.ks[1] sl.ks[2] b := by
  rw [decryptWith, hkind]

/-- Settles O9: `decode_ofNat` for its word, and one case of `exec` for each state of the slot; on a valid slot the kind says which
encryption `encryptWith` is. -/
theorem encWritesTheEncryptedBlock : Obligations.EncWritesTheEncryptedBlock := by
  intro s c
  refine ⟨fun hc => decode_ofNat (i := .enc c) hc, fun sl hs hv hkind => ?des, fun sl hs hv hkind => ?tdes,
    fun sl hs hv => exec_wrongSlot (i := .enc c) hs hv,
    fun hc => exec_badCtx (i := .enc c) hc⟩
  case des => rw [exec_enc_valid hs hv, encryptWith_des hkind, succeed]
  case tdes => rw [exec_enc_valid hs hv, encryptWith_tdes hkind, succeed, tdesEncrypt]

/-- Settles O10: as O9, with `decryptWith`. -/
theorem decWritesTheDecryptedBlock : Obligations.DecWritesTheDecryptedBlock := by
  intro s c
  refine ⟨fun hc => decode_ofNat (i := .dec c) hc, fun sl hs hv hkind => ?des, fun sl hs hv hkind => ?tdes,
    fun sl hs hv => exec_wrongSlot (i := .dec c) hs hv,
    fun hc => exec_badCtx (i := .dec c) hc⟩
  case des => rw [exec_dec_valid hs hv, decryptWith_des hkind, succeed]
  case tdes => rw [exec_dec_valid hs hv, decryptWith_tdes hkind, succeed, tdesDecrypt]

/-- Settles O11: `decode_ofNat` for its word, and one case of `exec` for each state of the slot; what a valid slot becomes is
`clearedSlot` written out. -/
theorem destroyEndsTheInstance : Obligations.DestroyEndsTheInstance := by
  intro s c
  exact ⟨fun hc => decode_ofNat (i := .destroy c) hc,
    fun sl hs hv => exec_rightSlot (i := .destroy c) hs hv,
    fun sl hs hv => exec_wrongSlot (i := .destroy c) hs hv,
    fun hc => exec_badCtx (i := .destroy c) hc⟩

/-- A slot's decryption undoes its encryption, by R152 on a DES slot and by R167 on a Triple-DES slot. -/
theorem decryptWith_encryptWith (sl : Slot) (b : Word) : decryptWith sl (encryptWith sl b) = b := by
  cases hkind : sl.kind with
  | des => rw [decryptWith_des hkind, encryptWith_des hkind, desDecrypt_desEncrypt]
  | tdes => rw [decryptWith_tdes hkind, encryptWith_tdes hkind, (tdesDecryptInvertsTdesEncrypt _ _ _ b).1]

theorem encryptWith_decryptWith (sl : Slot) (b : Word) : encryptWith sl (decryptWith sl b) = b := by
  cases hkind : sl.kind with
  | des => rw [encryptWith_des hkind, decryptWith_des hkind, desEncrypt_desDecrypt]
  | tdes => rw [encryptWith_tdes hkind, decryptWith_tdes hkind, (tdesDecryptInvertsTdesEncrypt _ _ _ b).2]

/-- Settles O22: the first command leaves the slots as they were, so the second runs on the same slot `sl`, where the two ciphers
undo each other. -/
theorem decUndoesEncOnTheSameSlot : Obligations.DecUndoesEncOnTheSameSlot := by
  intro s c sl hs hv
  constructor
  · exact ⟨_, exec_enc_valid hs hv, _, exec_dec_valid hs hv, decryptWith_encryptWith sl s.din, rfl⟩
  · exact ⟨_, exec_dec_valid hs hv, _, exec_enc_valid hs hv, encryptWith_decryptWith sl s.din, rfl⟩

end Sys2Proof.Proofs
end

section
/-! The errors of a CMD write (R200 to R203, R214), and what the agents cannot learn or influence (R26, R208, R213). -/

namespace Sys2Proof.Proofs

open Sys2Proof.Machine

/-- Settles O12: the checks of a command are exhaustive. -/
theorem everyCommandCompletes : Obligations.EveryCommandCompletes :=
  exec_answers

/-- A CMD write raises an error and does nothing else, or a command succeeds with its effect (R201, R202). -/
theorem execute_cases {w : Word} {s t : State} (h : execute w s = .next t) :
    (∃ code, code ≠ .ok ∧ t = raiseError code s) ∨ ∃ i sl, t = succeed (commandEffect i sl s) := by
  rcases hd : decode w with e | i
  · rw [execute_illegal hd] at h
    cases h
    exact .inl ⟨.illegalCmd, nofun, rfl⟩
  · rw [execute_command hd] at h
    obtain ⟨-, rfl⟩ | ⟨sl, -, ⟨-, rfl⟩ | ⟨-, rfl⟩⟩ := exec_cases h
    · exact .inl ⟨.badCtx, nofun, rfl⟩
    · exact .inl ⟨_, by cases isLoad i <;> nofun, rfl⟩
    · exact .inr ⟨i, sl, rfl⟩

/-- Settles O13: a command that ends with an error is the first case of `execute_cases`. -/
theorem failingCommandChangesOnlyStatus : Obligations.FailingCommandChangesOnlyStatus := by
  intro w s t h hne
  obtain ⟨code, -, rfl⟩ | ⟨i, sl, rfl⟩ := execute_cases h
  · rfl
  · exact absurd rfl hne

/-- Settles O14: a command that ends with ERRCODE 0 is the second case of `execute_cases`, and `commandEffect_frame` is its frame. -/
theorem succeedingCommandChangesOnlySlotsDoutAndErrcode : Obligations.SucceedingCommandChangesOnlySlotsDoutAndErrcode := by
  intro w s t h hok
  obtain ⟨code, hne, rfl⟩ | ⟨i, sl, rfl⟩ := execute_cases h
  · exact absurd hok hne
  · exact congrArg succeed (commandEffect_frame i sl s)

/-! The order of the checks (R203). -/

/-- The ERRCODE number of a command by the checks on its slot, in their order (R200, R203). -/
theorem exec_errcodeNumber {i : Instr} {s t : State} (h : exec i s = .next t) :
    (errcodeNumber t.errcode).toNat =
      if s.ctx.length ≤ i.slot then 2
      else if (s.ctx[i.slot]?).any (·.valid) then (if isLoad i then 4 else 0)
      else (if isLoad i then 0 else 3) := by
  obtain ⟨hout, rfl⟩ | ⟨sl, hs, hcase⟩ := exec_cases h
  · rw [if_pos hout]
    rfl
  · obtain ⟨hin, -⟩ := List.getElem?_eq_some_iff.mp hs
    rw [if_neg (Nat.not_le.mpr hin), hs, Option.any_some]
    obtain ⟨hwrong, rfl⟩ | ⟨hright, rfl⟩ := hcase
    · rw [hwrong]
      cases isLoad i <;> rfl
    · rw [hright]
      cases isLoad i <;> rfl

/-- The loads are the commands with OP 1 and 2 (R72). -/
theorem isLoad_iff_opcode (i : Instr) : isLoad i = true ↔ (opcodeOf i).toNat ≤ 2 := by
  cases i <;> simp [isLoad, opcodeOf]

/-- Settles O15: a word that does not decode has a reserved bit or an illegal OP (`decode_eq_error`); for a command
`exec_errcodeNumber` gives the checks on its slot, where CTX is the index and OP says whether it loads. -/
theorem errorCodeIsTheFirstFailingCheck : Obligations.ErrorCodeIsTheFirstFailingCheck := by
  intro s a w rest
  rw [step_cmdWrite]
  rcases hd : decode w with e | i
  · refine ⟨_, execute_illegal hd _, ?_⟩
    obtain hrsv | hop := decode_eq_error.mp ⟨e, hd⟩
    · rw [if_pos hrsv]
      rfl
    · rw [if_pos hop, ite_self]
      rfl
  · have hlegal : ¬ (w &&& 0xFFFFFFFFFFFF00F0 ≠ 0 ∨ w.toNat % 16 = 0 ∨ 6 ≤ w.toNat % 16) := by
      rw [← decode_eq_error, hd]
      exact nofun
    obtain ⟨hrsv, hop⟩ := not_or.mp hlegal
    obtain ⟨-, -, hopcode, hctx⟩ := decode_eq_ok.mp hd
    obtain ⟨t, ht⟩ := exec_answers i { s with arrivals := rest }
    refine ⟨t, (execute_command hd _).trans ht, ?_⟩
    rw [if_neg hrsv, if_neg hop, exec_errcodeNumber ht]
    simp only [isLoad_iff_opcode, ← hopcode, ← hctx, opField_toNat, ctxField_toNat]

/-! Reads and agents. -/

/-- A step takes the first arriving access and has its effect. -/
theorem effect_of_step {s t : State} {a : Nat} {e : Event} {rest : List Arrival} (harr : s.arrivals = ⟨a, e⟩ :: rest)
    (h : step s = .next t) : Effect a e { s with arrivals := rest } t :=
  perform_cases (by simpa only [step, harr] using h)

/-- What a read adds to the replies: nothing when it is undefined, else the register's value (R54, R56). -/
theorem effect_read_replies {a off width : Nat} {s t : State} (he : Effect a (.read off width) s t) :
    (target off width = .undefinedAccess ∧ t.replies = s.replies) ∨
      ∃ r, target off width = .reg r ∧ t.replies = ⟨a, readReg r s⟩ :: s.replies := by
  cases he with
  | undefinedRead _ _ _ hu => exact .inl ⟨hu, rfl⟩
  | reads r => exact .inr ⟨r, target_regOffset r, rfl⟩

/-- The value of a register is a function of DIN, DOUT, STATUS and `N_CTX`: KEY1..KEY3 read as 0, and no register shows a slot
(R25, R26, R54). -/
theorem readReg_congr {s₁ s₂ : State} (hdin : s₁.din = s₂.din) (hdout : s₁.dout = s₂.dout) (hcode : s₁.errcode = s₂.errcode)
    (hseen : s₁.errseen = s₂.errseen) (hctx : s₁.ctx.length = s₂.ctx.length) (r : Reg) : readReg r s₁ = readReg r s₂ := by
  cases r with
  | cmd | key1 | key2 | key3 => rfl
  | status => simp only [readReg, statusWord, hcode, hseen]
  | din => exact hdin
  | dout => exact hdout
  | caps => exact congrArg (BitVec.ofNat 64) hctx

/-- Settles O33: both reads reach the same target, and `readReg_congr` compares the values they return. -/
theorem readsDoNotRevealKeysOrSchedules : Obligations.ReadsDoNotRevealKeysOrSchedules := by
  intro s₁ s₂ t₁ t₂ a off width rest harr₁ harr₂ hdin hdout hcode hseen hctx hreplies hstep₁ hstep₂
  obtain ⟨hu, ht₁⟩ | ⟨r, hr, ht₁⟩ := effect_read_replies (effect_of_step harr₁ hstep₁) <;>
    obtain ⟨hu', ht₂⟩ | ⟨r', hr', ht₂⟩ := effect_read_replies (effect_of_step harr₂ hstep₂)
  · exact (ht₁.trans hreplies).trans ht₂.symm
  · cases hu.symm.trans hr'
  · cases hr.symm.trans hu'
  · cases hr.symm.trans hr'
    have hvalue : readReg r { s₁ with arrivals := rest } = readReg r { s₂ with arrivals := rest } :=
      readReg_congr hdin hdout hcode hseen hctx r
    rw [ht₁, ht₂, hvalue]
    exact congrArg _ hreplies

/-- The effect of an access made by another agent: the same, but for the agent a read's value is returned to (R208, R213). -/
theorem effect_anyAgent {a : Nat} {e : Event} {s t : State} (he : Effect a e s t) (b : Nat) :
    ∃ u, Effect b e s u ∧ { u with replies := [] } = { t with replies := [] } ∧
      u.replies.map (·.value) = t.replies.map (·.value) := by
  cases he with
  | reads r => exact ⟨_, .reads b r s, rfl, rfl⟩
  | resets d => exact ⟨_, .resets b d s, rfl, rfl⟩
  | writes r v _ hr => exact ⟨_, .writes b r v s hr, rfl, rfl⟩
  | illegal w _ e hd => exact ⟨_, .illegal b w s e hd, rfl, rfl⟩
  | command w _ _ i hd hexec => exact ⟨t, .command b w s t i hd hexec, rfl, rfl⟩
  | undefinedRead off width _ hu => exact ⟨_, .undefinedRead b off width s hu, rfl, rfl⟩
  | undefinedWrite off width v _ hu => exact ⟨_, .undefinedWrite b off width v s hu, rfl, rfl⟩

/-- Settles O34: the other agent's step has the effect that `effect_anyAgent` compares. -/
theorem anyAgentHasTheSameEffect : Obligations.AnyAgentHasTheSameEffect := by
  intro s t a b e rest hstep
  obtain ⟨u, heff, hblock, hvalues⟩ := effect_anyAgent (effect_of_step rfl hstep) b
  exact ⟨u, step_of_effect rfl heff, hblock, hvalues⟩

end Sys2Proof.Proofs
end

section
/-! The host's sequences of accesses (R233, R242), rekeying a slot (R247), reset (R230) and waiting (R231). -/

namespace Sys2Proof.Proofs

open Sys2Proof.Machine

/-- A run begins with the effect of the first arriving access. -/
theorem run_of_effect {s t u : State} {a : Nat} {e : Event} {rest : List Arrival} {k : Nat}
    (harr : s.arrivals = ⟨a, e⟩ :: rest) (heff : Effect a e { s with arrivals := rest } t)
    (hrun : Host.Core.run Sys2Proof.core k t = .next u) : Host.Core.run Sys2Proof.core (k + 1) s = .next u := by
  have hstep : step s = .next t := step_of_effect (by rw [harr, List.head?_cons]) (by rwa [harr, List.tail_cons])
  exact (run_of_step hstep k).trans hrun

/-- A CMD write of a command's word runs the command (R70, R78). -/
theorem effect_encode {i : Instr} {s t : State} (hslot : i.slot < 256) (hexec : exec i s = .next t) (a : Nat) :
    Effect a (.write 0x00 8 (encode i)) s t :=
  .command a _ s t i (decodeOfEncodeIsTheCommand i (wellFormed_iff.mpr hslot)) hexec

/-- The block commands on slot `c`, each with the result it has on the block `b` when the slot holds `sl` (R181, R182). -/
def blockCommands (c : Nat) (sl : Slot) (b : Word) : List (Instr × Word) :=
  [(.enc c, encryptWith sl b), (.dec c, decryptWith sl b)]

theorem mem_blockCommands {c : Nat} {sl : Slot} {b : Word} {i : Instr} {result : Word} :
    (i, result) ∈ blockCommands c sl b ↔
      (i = .enc c ∧ result = encryptWith sl b) ∨ (i = .dec c ∧ result = decryptWith sl b) := by
  simp [blockCommands]

/-- A CMD write of a block command on a valid slot puts its result into DOUT and 0 into ERRCODE, and does nothing else. -/
theorem effect_blockCommand {s : State} {c : Nat} {sl : Slot} {i : Instr} {result : Word} (hc : c < 256)
    (hs : s.ctx[c]? = some sl) (hv : sl.valid = true) (hi : (i, result) ∈ blockCommands c sl s.din) (a : Nat) :
    Effect a (.write 0x00 8 (encode i)) s { s with dout := result, errcode := .ok } := by
  obtain ⟨rfl, rfl⟩ | ⟨rfl, rfl⟩ := mem_blockCommands.mp hi
  · exact effect_encode (i := .enc c) hc (exec_enc_valid hs hv) a
  · exact effect_encode (i := .dec c) hc (exec_dec_valid hs hv) a

/-- A read of DOUT straight after a block command returns the command's result (R242). -/
theorem run_blockCommand_readDout {s : State} {c : Nat} {sl : Slot} {i : Instr} {result : Word} (hc : c < 256)
    (hs : s.ctx[c]? = some sl) (hv : sl.valid = true) (hi : (i, result) ∈ blockCommands c sl s.din) (a b : Nat)
    (rest : List Arrival) :
    Host.Core.run Sys2Proof.core 2
        { s with arrivals := ⟨a, .write 0x00 8 (encode i)⟩ :: ⟨b, .read 0x30 8⟩ :: rest } =
      .next { s with
        dout := result
        errcode := .ok
        arrivals := rest
        replies := ⟨b, result⟩ :: s.replies } := by
  refine run_of_effect rfl (effect_blockCommand (s := { s with arrivals := ⟨b, .read 0x30 8⟩ :: rest }) hc hs hv hi a) ?_
  exact run_of_effect rfl (.reads b .dout _) (run_zero _)

/-- Settles O35: `run_blockCommand_readDout` for each of the two block commands. -/
theorem readAfterBlockCommandReturnsItsResult : Obligations.ReadAfterBlockCommandReturnsItsResult := by
  intro s a b c sl rest hc hs hv
  exact ⟨run_blockCommand_readDout hc hs hv (mem_blockCommands.mpr (.inl ⟨rfl, rfl⟩)) a b rest,
    run_blockCommand_readDout hc hs hv (mem_blockCommands.mpr (.inr ⟨rfl, rfl⟩)) a b rest⟩

/-- STATUS with ERRCODE 0 is ERRSEEN at bit 8 (R24). -/
theorem statusWord_ok {s : State} (h : s.errcode = .ok) :
    statusWord s = BitVec.ofNat 64 (if s.errseen then 256 else 0) := by
  rw [statusWord_eq_sum, h]
  rfl

/-- The last four accesses of R233: write DIN, a block command, read STATUS, read DOUT. -/
def blockAccesses (b : Word) (i : Instr) : List Event :=
  [.write 0x28 8 b, .write 0x00 8 (encode i), .read 0x08 8, .read 0x30 8]

/-- The last four accesses of R233 on a valid slot return STATUS with ERRCODE 0 and the command's result. -/
theorem run_blockSequence {s : State} {a c : Nat} {sl : Slot} {b : Word} {i : Instr} {result : Word}
    {rest : List Arrival} (hc : c < 256) (hs : s.ctx[c]? = some sl) (hv : sl.valid = true)
    (hi : (i, result) ∈ blockCommands c sl b) (harr : s.arrivals = arrivalsOf a (blockAccesses b i) ++ rest) :
    Host.Core.run Sys2Proof.core 4 s =
      .next { s with
        din := b
        dout := result
        errcode := .ok
        arrivals := rest
        replies := ⟨a, result⟩ :: ⟨a, BitVec.ofNat 64 (if s.errseen then 256 else 0)⟩ :: s.replies } := by
  rw [← statusWord_ok (s := { s with errcode := .ok }) rfl]
  refine run_of_effect harr (.writes a .din b _ nofun) ?_
  have heff := effect_blockCommand
    (s := { s with din := b, arrivals := arrivalsOf a [.read 0x08 8, .read 0x30 8] ++ rest }) hc hs hv hi a
  refine run_of_effect rfl heff ?_
  refine run_of_effect rfl (.reads a .status _) ?_
  exact run_of_effect rfl (.reads a .dout _) (run_zero _)

/-- Every load builds a valid instance (R110, R163). -/
theorem loadedSlot_valid (i : Instr) (keys : Vector Word 3) : (loadedSlot i keys).valid = true := by
  cases i <;> rfl

/-- The accesses of R233 that follow the key writes: a load into a free slot, then `run_blockSequence` with the instance that the
load builds from the staged keys. -/
theorem run_loadSequence {s : State} {sl : Slot} {b : Word} {load i : Instr} {result : Word}
    (hload : isLoad load = true) (hc : load.slot < 256) (hs : s.ctx[load.slot]? = some sl) (hv : sl.valid = false)
    (hi : (i, result) ∈ blockCommands load.slot (loadedSlot load s.keyStage) b) (a : Nat) (rest : List Arrival) :
    ∃ t, Host.Core.run Sys2Proof.core 5
        { s with arrivals := arrivalsOf a (.write 0x00 8 (encode load) :: blockAccesses b i) ++ rest } =
        .next t ∧
      t.arrivals = rest ∧
      t.replies = ⟨a, result⟩ :: ⟨a, BitVec.ofNat 64 (if s.errseen then 256 else 0)⟩ :: s.replies := by
  obtain ⟨u, hu, hok, hslot⟩ :=
    exec_load_builds (s := { s with arrivals := arrivalsOf a (blockAccesses b i) ++ rest }) hload hs hv
  have hframe := exec_frame hu
  have hseen : u.errseen = s.errseen := by
    obtain ⟨-, hkept⟩ | ⟨hne, -⟩ := exec_status hu
    · exact hkept
    · exact absurd hok hne
  have hrest := congrArg State.arrivals hframe
  have hreplies : u.replies = s.replies := by rw [hframe]
  exact ⟨_, run_of_effect rfl (effect_encode hc hu a) (run_blockSequence hc hslot (loadedSlot_valid load _) hi hrest),
    rfl, by rw [hseen, hreplies]⟩

/-- Settles O36: after the write of KEY1, `run_loadSequence` for `des.load`. -/
theorem desSequenceReturnsTheCiphertext : Obligations.DesSequenceReturnsTheCiphertext := by
  intro s a c sl k b i result rest hc hs hv hi harr
  have hblock : (i, result) ∈ blockCommands c (desInstance (s.keyStage.set 0 k)[0]) b := by
    rwa [Vector.getElem_set_self]
  obtain ⟨t, hrun, hdone⟩ := run_loadSequence (load := .desLoad c)
    (s := { s with keyStage := s.keyStage.set 0 k }) rfl hc hs hv hblock a rest
  exact ⟨t, run_of_effect harr (.writes a .key1 k _ nofun) hrun, hdone⟩

/-- Settles O37: after the writes of KEY1, KEY2 and KEY3, `run_loadSequence` for `tdes.load`. -/
theorem tdesSequenceReturnsTheCiphertext : Obligations.TdesSequenceReturnsTheCiphertext := by
  intro s a c sl k₁ k₂ k₃ b i result rest hc hs hv hi harr
  have hkeys : ((s.keyStage.set 0 k₁).set 1 k₂).set 2 k₃ = #v[k₁, k₂, k₃] := by
    rw [keys_eta s.keyStage]
    rfl
  have hblock : (i, result) ∈ blockCommands c (tdesInstance (((s.keyStage.set 0 k₁).set 1 k₂).set 2 k₃)) b := by
    rwa [hkeys, blockCommands, encryptWith_tdesInstance, decryptWith_tdesInstance]
  obtain ⟨t, hrun, hdone⟩ := run_loadSequence (load := .tdesLoad c)
    (s := { s with keyStage := ((s.keyStage.set 0 k₁).set 1 k₂).set 2 k₃ }) rfl hc hs hv hblock a rest
  refine ⟨t, ?_, hdone⟩
  refine run_of_effect harr (.writes a .key1 k₁ _ nofun) ?_
  refine run_of_effect rfl (.writes a .key2 k₂ _ nofun) ?_
  exact run_of_effect rfl (.writes a .key3 k₃ _ nofun) hrun

/-- Settles O25: `destroy` leaves a slot that is not valid, where `enc` fails and `exec_load_builds` says what each load builds. -/
theorem rekeyingTakesDestroyThenLoad : Obligations.RekeyingTakesDestroyThenLoad := by
  intro s c sl hs hv
  obtain ⟨hin, -⟩ := List.getElem?_eq_some_iff.mp hs
  have hcleared : (setSlot c (clearedSlot sl) s).ctx[c]? = some (clearedSlot sl) := List.getElem?_set_self hin
  refine ⟨?inUse, _, exec_rightSlot (i := .destroy c) hs hv, exec_wrongSlot (i := .enc c) hcleared rfl, ?des, ?tdes⟩
  case inUse => rintro i (rfl | rfl) <;> exact exec_wrongSlot hs hv
  case des =>
    obtain ⟨u, hu, hok, hslot⟩ := exec_load_builds (i := .desLoad c) rfl hcleared rfl
    exact ⟨u, _, hu, hok, hslot, rfl, rfl, rfl, rfl⟩
  case tdes =>
    obtain ⟨u, hu, hok, hslot⟩ := exec_load_builds (i := .tdesLoad c) rfl hcleared rfl
    exact ⟨u, _, hu, hok, hslot, rfl, rfl, fun j hj => tdesInstance_engine s.keyStage hj⟩

/-- Settles O32: with no access there is nothing to perform. -/
theorem blockWaitsWithoutAnAccess : Obligations.BlockWaitsWithoutAnAccess := by
  intro s hnone
  rw [step, hnone]

/-- Settles O39: the step has the effect of reset, which keeps the number of slots and leaves drawn ones. -/
theorem resetLeavesNoInstanceAndStatusZero : Obligations.ResetLeavesNoInstanceAndStatusZero := by
  intro s a d rest
  refine ⟨_, step_of_effect rfl (.resets a d _), rfl, rfl, rfl, rfl, rfl, rfl, rfl, rfl, resetWith_nCtx d _, ?_⟩
  intro c sl hsl
  rw [resetWith_getElem? hsl, drawnSlot_valid]

end Sys2Proof.Proofs
end
